-- ==== Sys2Proof/Word.lean ====
section
/-! DEFINITION. The one word type of the block and its plainest arithmetic (spec/00_scope.md R10, R12). -/
namespace Sys2Proof

/-- The only data width of the block, 8 bits (R6 DATA_WIDTH, R22). Offsets have the same width (R6 ADDR_WIDTH). -/
abbrev Byte := BitVec 8

end Sys2Proof
end

