-- ==== Sys2Proof/Syntax.lean ====
section
/-! DEFINITION. The instructions: one constructor per row of spec/opcode_table.json. -/
namespace Sys2Proof

/-- The ten commands (spec/30_encoding.md R92; a command's operands are registers, R91) and the one
register write the table lists, whose operand is the byte written (spec/40_checksum.md R136). -/
inductive Instr where
  /-- CRC8, R130. -/
  | crc8
  /-- CRC8_CHK, R131. -/
  | crc8Chk
  /-- POP4, R132. -/
  | pop4
  /-- POP4_CHK, R133. -/
  | pop4Chk
  /-- POP4B, R134. -/
  | pop4b
  /-- POP4B_CHK, R135. -/
  | pop4bChk
  /-- STUFF_ENC, R160. -/
  | stuffEnc
  /-- STUFF_DEC, R161. -/
  | stuffDec
  /-- FRAME_ASM, R190. -/
  | frameAsm
  /-- FRAME_DIS, R191. -/
  | frameDis
  /-- CRC_DATA, R136: a host write of `data` to offset 0x0A. -/
  | crcData (data : Byte)
  deriving DecidableEq, Repr

end Sys2Proof
end

