-- ==== Sys2Proof/WellFormed.lean ====
section
/-! DEFINITION. What the syntax must meet before the machine gives it a meaning. -/
namespace Sys2Proof

/-- An instruction needs no check: a command has no operand field (spec/30_encoding.md R90), and the one
operand of CRC_DATA is a byte by its type (spec/40_checksum.md R136). -/
def Instr.wf : Instr → Bool
  | .crc8 => true
  | .crc8Chk => true
  | .pop4 => true
  | .pop4Chk => true
  | .pop4b => true
  | .pop4bChk => true
  | .stuffEnc => true
  | .stuffDec => true
  | .frameAsm => true
  | .frameDis => true
  | .crcData _ => true

/-- The check on a host access: it moves exactly one byte (spec/20_memory.md R64). -/
def widthOk (width : Nat) : Bool := width == 1

end Sys2Proof
end

