-- ==== Sys2Proof/Decode.lean ====
section
/-! DEFINITION. Bytes to instructions and back (spec/30_encoding.md R90-R95, spec/opcode_table.json).

An instruction reaches the block as one host write, so its bytes are the pair offset, value: a command
is its opcode written to CMD (R90), CRC_DATA is its data byte written to offset 0x0A (R136). -/
namespace Sys2Proof

/-- Why bytes are no instruction. -/
inductive DecodeError where
  /-- A value of CMD that is none of the ten opcodes (R93). Safe: the machine completes it with IllegalCommand. -/
  | illegalCommand (op : Byte)
  /-- A write to an offset that starts no instruction of the table. Safe: the machine performs the write (R67, R68). -/
  | notAnInstruction (offset : Byte)
  /-- Fewer than the two bytes of a write. Safe: no state change. -/
  | tooShort
  deriving DecidableEq, Repr

/-- The offset of CMD (R22). -/
def cmdOffset : Byte := 0x00#8

/-- The offset of CRC_DATA (R22, R136). -/
def crcDataOffset : Byte := 0x0A#8

/-- The opcode map of R92; all 8 bits are matched, and every other value is illegal (R93, R94). -/
def decodeCmd (op : Byte) : Except DecodeError Instr :=
  if op = 0x01#8 then .ok .crc8
  else if op = 0x02#8 then .ok .crc8Chk
  else if op = 0x03#8 then .ok .pop4
  else if op = 0x04#8 then .ok .pop4Chk
  else if op = 0x05#8 then .ok .pop4b
  else if op = 0x06#8 then .ok .pop4bChk
  else if op = 0x10#8 then .ok .stuffEnc
  else if op = 0x11#8 then .ok .stuffDec
  else if op = 0x20#8 then .ok .frameAsm
  else if op = 0x21#8 then .ok .frameDis
  else .error (.illegalCommand op)

/-- The REGWRITE row of the table: a write of `v` to offset `a` (R136). -/
def decodeRegWrite (a v : Byte) : Except DecodeError Instr :=
  if a = crcDataOffset then .ok (.crcData v) else .error (.notAnInstruction a)

/-- The instruction that a host write of `v` to offset `a` is. -/
def decodeWrite (a v : Byte) : Except DecodeError Instr :=
  if a = cmdOffset then decodeCmd v else decodeRegWrite a v

/-- One instruction from a list of bytes, with the bytes after it. -/
def decode : List Byte → Except DecodeError (Instr × List Byte)
  | a :: v :: rest =>
    match decodeWrite a v with
    | .ok i => .ok (i, rest)
    | .error e => .error e
  | _ => .error .tooShort

/-- The offset that an instruction's host write goes to. -/
def offsetOf : Instr → Byte
  | .crc8 => cmdOffset
  | .crc8Chk => cmdOffset
  | .pop4 => cmdOffset
  | .pop4Chk => cmdOffset
  | .pop4b => cmdOffset
  | .pop4bChk => cmdOffset
  | .stuffEnc => cmdOffset
  | .stuffDec => cmdOffset
  | .frameAsm => cmdOffset
  | .frameDis => cmdOffset
  | .crcData _ => crcDataOffset

/-- The value that an instruction's host write carries: a command's opcode (R92), CRC_DATA's data byte (R136). -/
def valueOf : Instr → Byte
  | .crc8 => 0x01#8
  | .crc8Chk => 0x02#8
  | .pop4 => 0x03#8
  | .pop4Chk => 0x04#8
  | .pop4b => 0x05#8
  | .pop4bChk => 0x06#8
  | .stuffEnc => 0x10#8
  | .stuffDec => 0x11#8
  | .frameAsm => 0x20#8
  | .frameDis => 0x21#8
  | .crcData d => d

/-- The two bytes of an instruction's host write. -/
def encode (i : Instr) : List Byte := [offsetOf i, valueOf i]

/-- The host write that a table word stands for. In spec/opcode_table.json the byte of a CMD row is the
value written to CMD, and the byte of the REGWRITE row is the offset 0x0A, with the data byte above it
(0 where the table gives it no bits). No CMD row has the value 0x0A (R93). Log 7. -/
def tableWrite (nbits w : Nat) : Byte × Byte :=
  let w' := w % 2 ^ nbits
  let low := BitVec.ofNat 8 w'
  if low = crcDataOffset then (low, BitVec.ofNat 8 (w' / 256)) else (cmdOffset, low)

/-- The instruction of a table word: its host write, given to the decoder. -/
def decodeTableWord (nbits w : Nat) : Option Instr :=
  match decode [(tableWrite nbits w).1, (tableWrite nbits w).2] with
  | .ok (i, _) => some i
  | .error _ => none

end Sys2Proof
end

