-- ==== Sys2Proof/Config.lean ====
section
/-! DEFINITION. The parameters of spec/00_scope.md R5 and R6, and the free values. -/
namespace Sys2Proof.Config

/-- START_BYTE (R5): marks the start of a frame; the byte that stuffing eliminates. -/
def startByte : Byte := 0xAA#8

/-- CRC_POLY (R5): x^8 + x^2 + x + 1 with the x^8 term implicit. -/
def crcPoly : Byte := 0x07#8

/-- CRC_INIT (R5). CRC_XOROUT is 0x00 and CRC_REFLECT is none (R5), so neither has an operation. -/
def crcInit : Byte := 0x00#8

/-- MAX_PAYLOAD_LENGTH (R5). -/
def maxPayload : Nat := 28

/-- MAX_STUFF_INDEX (R5). -/
def maxStuffIndex : Nat := 63

/-- STUFF_CODE_FLUSH (R5): the run counter at which the encoder closes a run without a start byte. -/
def flushCode : Nat := 0xFF

/-- IN_SIZE (R6). -/
def inSize : Nat := 64

/-- OUT_SIZE (R6). -/
def outSize : Nat := 128

/-- The FREE VALUES: the byte that draw number `n` gives, "any byte, under no law" (R11 and
spec/92_eei_decisions.md D35). It has no body, so nothing can be proved of any byte it gives.
`State.draws` counts the draws taken, so that every draw is a fresh one. DESIGN CHOICE, log 1. -/
opaque draw : Nat → Byte

end Sys2Proof.Config
end

