-- ==== Sys2Proof/Machine/State.lean ====
section
/-! DEFINITION. What the machine holds, and the state after reset (spec/10_state.md, spec/70_reset_and_hazards.md). -/
namespace Sys2Proof.Machine

/-- Why the machine stops with a fault: never. The block has no fault path; every error is the outcome of
a command (spec/60_exceptions.md R210, R215). No constructor, so no step can raise one. -/
inductive Fault where
  deriving DecidableEq, Repr

/-- Why the machine gives a step no meaning. -/
inductive Refusal where
  /-- Raised by an arm of exec whose instruction has no meaning yet. Safe. -/
  | notModelled (mnemonic : String)
  /-- Raised by a host access of any width but one byte: the spec has the model refuse it
  (spec/20_memory.md R64, spec/93_implementation_defined.md U7). Safe. -/
  | accessWidth (width : Nat)
  /-- Raised by two masters driving the port at once, or a host access in the same step as a reset: the
  spec has the model refuse it (spec/20_memory.md R79, spec/70_reset_and_hazards.md R240, U8). Safe. -/
  | simultaneousAccess
  deriving DecidableEq, Repr

/-- One step of one agent (spec/00_scope.md R8, R9). -/
inductive Event where
  /-- The host reads `width` bytes at an offset: MemRead(a, width) (R11). -/
  | memRead (a : Byte) (width : Nat)
  /-- The host writes `width` bytes at an offset: MemWrite(a, width, v) (R11); `v` is the byte of a one-byte access. -/
  | memWrite (a : Byte) (width : Nat) (v : Byte)
  /-- The engine takes its turn: *complete*, if it is enabled (spec/10_state.md R45). -/
  | complete
  /-- The reset input is asserted (spec/70_reset_and_hazards.md R240). -/
  | reset
  /-- Two host accesses, or a host access and a reset, in one step (spec/20_memory.md R79, R240). -/
  | clash
  deriving DecidableEq, Repr

/-- The bytes of IN and OUT whose value is known because something wrote them: pairs of offset and byte,
offsets strictly rising, each in 0x40..0xFF (`Memory.wf`). A byte of IN or OUT that is not listed holds a
free value (`State.byteAt`; spec/70_reset_and_hazards.md R241; log 2). -/
abbrev Memory := List Host.Cell

/-- All the spec gives the block, and the model's own fields at the end. -/
structure State where
  /-- CMD.OPCODE, offset 0x00 (R23). With `busy` it is the pending command (R41). -/
  cmd : Byte
  /-- STATUS.BUSY, bit 0 (R24). -/
  busy : Bool
  /-- STATUS.DONE, bit 1 (R25). -/
  done : Bool
  /-- STATUS.CHK_OK, bit 2 (R26). -/
  chkOk : Bool
  /-- STATUS.WIGN, bit 3 (R27). -/
  wign : Bool
  /-- CTRL.IE, bit 0 (R29). -/
  ie : Bool
  /-- ERRCODE, offset 0x03 (R30). -/
  errcode : Byte
  /-- LEN, offset 0x04 (R31). -/
  len : Byte
  /-- ARG0, offset 0x05 (R32). -/
  arg0 : Byte
  /-- ARG1, offset 0x06 (R33). -/
  arg1 : Byte
  /-- RESULT, offset 0x07 (R34). -/
  result : Byte
  /-- OUT_LEN, offset 0x08 (R35). -/
  outLen : Byte
  /-- CRC_ACC, offset 0x09 (R36). -/
  crcAcc : Byte
  /-- The bytes of IN (R38) and OUT (R39) that something wrote. -/
  mem : Memory
  /-- Model's own (log 2): an unwritten IN[i] holds draw number `inBase + i`. -/
  inBase : Nat
  /-- Model's own (log 2): an uncommitted OUT[i] holds draw number `outBase + i`. -/
  outBase : Nat
  /-- Model's own (log 1): the number of draws taken so far. -/
  draws : Nat
  /-- Model's own (log 5): the byte the host port returned at the last read. -/
  readData : Option Byte
  /-- Model's own (log 3): the steps the agents are still to take, the next one first. -/
  script : List Event
  deriving DecidableEq, Repr

/-- The machine after reset (spec/70_reset_and_hazards.md R240-R243): every register 0x00, IN and OUT
unspecified (draws 0..63 and 64..191), nothing pending, no step scheduled. -/
def State.reset : State where
  cmd := 0x00#8
  busy := false
  done := false
  chkOk := false
  wign := false
  ie := false
  errcode := 0x00#8
  len := 0x00#8
  arg0 := 0x00#8
  arg1 := 0x00#8
  result := 0x00#8
  outLen := 0x00#8
  crcAcc := 0x00#8
  mem := []
  inBase := 0
  outBase := 64
  draws := 192
  readData := none
  script := []

end Sys2Proof.Machine
end

