-- ==== Sys2Proof/Machine/Ops.lean ====
section
/-! DEFINITION. The named operations over memory and registers: the buffers IN and OUT, issue, the two
commits (success, and the error commit, which stands where a processor takes an exception), reset. -/
namespace Sys2Proof.Machine

/-! ### The list of written bytes -/

/-- The byte listed at an offset, if any. -/
def Memory.load : Memory → Nat → Option Byte
  | [], _ => none
  | (b, w) :: m, a => if b = a then some w else Memory.load m a

/-- Lists byte `v` at offset `a`, in its place in the rising order. -/
def Memory.store : Memory → Nat → Byte → Memory
  | [], a, v => [(a, v)]
  | (b, w) :: m, a, v =>
    if a < b then (a, v) :: (b, w) :: m
    else if a = b then (a, v) :: m
    else (b, w) :: Memory.store m a v

/-- The entries below an offset. -/
def Memory.below (m : Memory) (n : Nat) : Memory := m.filter fun c => c.1 < n

/-- The entries for bytes at consecutive offsets from `a` on. -/
def Memory.cells : Nat → List Byte → Memory
  | _, [] => []
  | a, b :: bs => (a, b) :: Memory.cells (a + 1) bs

/-- The first offset of IN (spec/20_memory.md R61). -/
def inStart : Nat := 0x40

/-- The first offset of OUT (R61). -/
def outStart : Nat := 0x80

/-- The canonical form: offsets strictly rise, and each lies in IN or OUT (0x40..0xFF). An unlisted byte
is a free value, which nothing can be compared with, so no entry is left out for its value (log 2). -/
def Memory.wf (m : Memory) : Bool :=
  decide (m.Pairwise fun c d => c.1 < d.1) && m.all fun c => decide (inStart ≤ c.1) && decide (c.1 < 0x100)

/-! ### The buffers -/

/-- The free value that a byte of IN or OUT holds until something writes it (R241, R47, R213). -/
def State.freshAt (s : State) (a : Nat) : Byte :=
  if a < outStart then Config.draw (s.inBase + (a - inStart)) else Config.draw (s.outBase + (a - outStart))

/-- The byte of IN or OUT at an offset 0x40..0xFF. -/
def State.byteAt (s : State) (a : Nat) : Byte :=
  match Memory.load s.mem a with
  | some b => b
  | none => s.freshAt a

/-- IN[i] (spec/10_state.md R38). -/
def State.inByte (s : State) (i : Nat) : Byte := s.byteAt (inStart + i)

/-- OUT[i] (R39). -/
def State.outByte (s : State) (i : Nat) : Byte := s.byteAt (outStart + i)

/-- IN[0] .. IN[n-1]. -/
def State.inBytes (s : State) (n : Nat) : List Byte := (List.range n).map s.inByte

/-- OUT[0] .. OUT[n-1]. -/
def State.outBytes (s : State) (n : Nat) : List Byte := (List.range n).map s.outByte

/-- IN[i] <- v (R38). -/
def State.storeIn (s : State) (i : Nat) (v : Byte) : State :=
  { s with mem := Memory.store s.mem (inStart + i) v }

/-- The OUT part of a byte-output command's commit: the first bytes are given, the others are drawn and
then stable (R47; with no bytes, R213). OUT has 128 places; no command gives more than 65 bytes (R35). -/
def State.fillOut (s : State) (bytes : List Byte) : State :=
  { s with
    mem := Memory.below s.mem outStart ++ Memory.cells outStart (bytes.take Config.outSize)
    outBase := s.draws
    draws := s.draws + Config.outSize }

/-! ### Outcomes of commands -/

/-- The error kinds of spec/60_exceptions.md R211. -/
inductive CmdError where
  | zeroCode
  | truncated
  | indexMismatch
  | startByteInInput
  | badStartByte
  | badLengthChecksum
  | badStuffingChecksum
  | lengthMismatch
  | badCrc
  | payloadTooLong
  | stuffingOverflow
  | frameTooShort
  | badLength
  | illegalCommand
  deriving DecidableEq, Repr

/-- The ERRCODE value of an error kind (R211). -/
def CmdError.code : CmdError → Byte
  | .zeroCode => 0x01#8
  | .truncated => 0x02#8
  | .indexMismatch => 0x03#8
  | .startByteInInput => 0x04#8
  | .badStartByte => 0x10#8
  | .badLengthChecksum => 0x11#8
  | .badStuffingChecksum => 0x12#8
  | .lengthMismatch => 0x13#8
  | .badCrc => 0x14#8
  | .payloadTooLong => 0x15#8
  | .stuffingOverflow => 0x16#8
  | .frameTooShort => 0x17#8
  | .badLength => 0x20#8
  | .illegalCommand => 0x21#8

/-- What a command that succeeds gives: `Ok(result, bytes, chk, ...)` of spec/10_state.md R45. -/
structure CmdOk where
  result : Byte
  bytes : List Byte
  chk : Bool
  deriving DecidableEq, Repr

/-- The outcome of a command (R45). -/
abbrev CmdOutcome := Except CmdError CmdOk

/-- The success commit (R47), with the BUSY and DONE of R45. -/
def State.commitOk (s : State) (writesOut : Bool) (o : CmdOk) : State :=
  let s' := if writesOut then s.fillOut o.bytes else s
  { s' with
    errcode := 0x00#8
    result := o.result
    chkOk := o.chk
    outLen := BitVec.ofNat 8 o.bytes.length
    busy := false
    done := true }

/-- The error commit (spec/60_exceptions.md R213), with the BUSY and DONE of R45: the one way in which the
block reports an error. Nothing is saved and nothing else changes (R210, R215). -/
def State.commitErr (s : State) (writesOut : Bool) (e : CmdError) : State :=
  let s' := if writesOut then s.fillOut [] else s
  { s' with
    errcode := e.code
    result := 0x00#8
    chkOk := false
    outLen := 0x00#8
    busy := false
    done := true }

/-- The completion of a command (R45). `writesOut` says that the command is a byte-output command. -/
def State.finish (s : State) (writesOut : Bool) (o : CmdOutcome) : State :=
  match o with
  | .ok r => s.commitOk writesOut r
  | .error e => s.commitErr writesOut e

/-! ### Issue, streaming, reset -/

/-- A write to an input that is ignored because BUSY = 1 (spec/20_memory.md R68). -/
def State.writeIgnored (s : State) : State := { s with wign := true }

/-- Issue of the command `v`, legal or not (spec/10_state.md R43). -/
def State.issue (s : State) (v : Byte) : State := { s with cmd := v, done := false, busy := true }

/-- The host port answers a read (spec/00_scope.md R11); log 5. -/
def State.answer (s : State) (b : Byte) : State := { s with readData := some b }

/-- Takes one draw (log 1). -/
def State.countDraw (s : State) : State := { s with draws := s.draws + 1 }

/-- The reset step (spec/70_reset_and_hazards.md R240, R241): every register at its reset value, a pending
command discarded, IN and OUT drawn anew. What the host has read and has still to do is the host's
(log 17). -/
def State.resetStep (s : State) : State :=
  { State.reset with
    inBase := s.draws
    outBase := s.draws + Config.inSize
    draws := s.draws + (Config.inSize + Config.outSize)
    readData := s.readData
    script := s.script }

end Sys2Proof.Machine
end

