-- ==== Sys2Proof/Machine/Operands.lean ====
section
/-! DEFINITION. Where operands come from: the address map (spec/20_memory.md R61) and the register operands
of the commands (spec/30_encoding.md R91, R98). -/
namespace Sys2Proof.Machine

/-- The locations of the 256-byte window (R61). -/
inductive Loc where
  | cmd
  | status
  | ctrl
  | errcode
  | len
  | arg0
  | arg1
  | result
  | outLen
  | crcAcc
  | crcData
  | reserved
  | inBuf (i : Nat)
  | outBuf (i : Nat)
  deriving DecidableEq, Repr

/-- The address map (R61; spec/10_state.md R22). -/
def locOf (a : Byte) : Loc :=
  if a = 0x00#8 then .cmd
  else if a = 0x01#8 then .status
  else if a = 0x02#8 then .ctrl
  else if a = 0x03#8 then .errcode
  else if a = 0x04#8 then .len
  else if a = 0x05#8 then .arg0
  else if a = 0x06#8 then .arg1
  else if a = 0x07#8 then .result
  else if a = 0x08#8 then .outLen
  else if a = 0x09#8 then .crcAcc
  else if a = 0x0A#8 then .crcData
  else if a.toNat < inStart then .reserved
  else if a.toNat < outStart then .inBuf (a.toNat - inStart)
  else .outBuf (a.toNat - outStart)

/-- The span operand (R98): IN[0 .. LEN-1], or BadLength. -/
def State.span (s : State) : Except CmdError (List Byte) :=
  if Config.inSize < s.len.toNat then .error .badLength else .ok (s.inBytes s.len.toNat)

/-- The expected CRC of CRC8_CHK: all 8 bits of ARG0 (R91). -/
def State.expectedCrc (s : State) : Byte := s.arg0

/-- The expected value of POP4_CHK and POP4B_CHK: ARG0[1:0] (R91, spec/40_checksum.md R126). -/
def State.expectedPop4 (s : State) : BitVec 2 := s.arg0.extractLsb' 0 2

/-- The stuffing index of STUFF_DEC: all 8 bits of ARG0 as a natural number (R91). -/
def State.stuffIndex (s : State) : Nat := s.arg0.toNat

/-- The single byte of POP4B and POP4B_CHK: ARG1 (R91). -/
def State.singleByte (s : State) : Byte := s.arg1

end Sys2Proof.Machine
end

