-- ==== Sys2Proof/Machine/Flags.lean ====
section
/-! DEFINITION. STATUS, CTRL and irq as software sees them, and the checksum functions that set CHK_OK and
the check bits of a frame (spec/10_state.md R24-R29, R40; spec/40_checksum.md R120-R126). -/
namespace Sys2Proof.Machine

/-! ### STATUS, CTRL, irq -/

/-- A flag as the bit `k` of a byte. -/
def flagBit (b : Bool) (k : Nat) : Byte := if b then BitVec.ofNat 8 (2 ^ k) else 0x00#8

/-- STATUS as a byte, with a given bit 2: BUSY, DONE, CHK_OK, WIGN in bits 0 to 3, bits 7:4 read 0 (R24-R28). -/
def State.statusWith (s : State) (chk : Bool) : Byte :=
  flagBit s.busy 0 ||| flagBit s.done 1 ||| flagBit chk 2 ||| flagBit s.wign 3

/-- STATUS as stored. -/
def State.statusByte (s : State) : Byte := s.statusWith s.chkOk

/-- CTRL as a byte: IE in bit 0, bits 7:1 read 0 (R29). -/
def State.ctrlByte (s : State) : Byte := flagBit s.ie 0

/-- The interrupt output, a level (R40, spec/60_exceptions.md R219). -/
def State.irq (s : State) : Bool := s.done && s.ie

/-- A host write to STATUS: W1C of DONE (bit 1) and WIGN (bit 3), other bits ignored (R25, R27, R28). This is
the acknowledgement that stands where a processor returns from an exception (spec/60_exceptions.md R216). -/
def State.ack (s : State) (v : Byte) : State :=
  { s with done := s.done && !v.getLsbD 1, wign := s.wign && !v.getLsbD 3 }

/-- A host write to CTRL: IE <- v[0], other bits ignored (R29). -/
def State.setCtrl (s : State) (v : Byte) : State := { s with ie := v.getLsbD 0 }

/-! ### CRC-8 -/

/-- One turn of the loop of R120. -/
def crcShift (v : Byte) : Byte := if v.getLsbD 7 then (v <<< 1) ^^^ Config.crcPoly else v <<< 1

/-- `crc_update(c, b)` (R120): eight turns, most significant bit first. -/
def crcUpdate (c b : Byte) : Byte :=
  crcShift (crcShift (crcShift (crcShift (crcShift (crcShift (crcShift (crcShift (c ^^^ b))))))))

/-- `crc8(s)` (R121): the fold of `crcUpdate` from the initial value. -/
def crc8 (s : List Byte) : Byte := s.foldl crcUpdate Config.crcInit

/-! ### Popcount mod 4 -/

/-- The number of 1 bits of a byte, 0 to 8 (spec/00_scope.md R12). -/
def popcount (b : Byte) : Nat :=
  (b.getLsbD 0).toNat + (b.getLsbD 1).toNat + (b.getLsbD 2).toNat + (b.getLsbD 3).toNat +
    (b.getLsbD 4).toNat + (b.getLsbD 5).toNat + (b.getLsbD 6).toNat + (b.getLsbD 7).toNat

/-- `pop4(b)` (R124), a value of 2 bits. -/
def pop4 (b : Byte) : BitVec 2 := BitVec.ofNat 2 (popcount b)

/-- `pop4s(s)` (R125): the sum over every byte, mod 4. -/
def pop4s (s : List Byte) : BitVec 2 := BitVec.ofNat 2 (s.map popcount).sum

/-! ### Validation (R126) -/

/-- `validate_crc8` over all 8 bits. -/
def crcMatches (computed expected : Byte) : Bool := computed == expected

/-- `validate_popcount_mod4` over 2 bits. -/
def pop4Matches (computed expected : BitVec 2) : Bool := computed == expected

end Sys2Proof.Machine
end

