-- ==== Sys2Proof/Machine/Checksum.lean ====
section
/-! DEFINITION. The checksum family (spec/40_checksum.md R130-R136). No command of it writes OUT. -/
namespace Sys2Proof.Machine

/-- The success of a checksum command: no output bytes (spec/40_checksum.md section 2). -/
def checksumOk (result : Byte) (chk : Bool) : CmdOutcome := .ok { result := result, bytes := [], chk := chk }

/-- A checksum command over the span: `f` of the span, or BadLength (R98). -/
def State.overSpan (s : State) (f : List Byte → CmdOutcome) : CmdOutcome :=
  match s.span with
  | .ok bytes => f bytes
  | .error e => .error e

/-- CRC8 (R130). -/
def execCrc8 (s : State) : Host.Outcome State Fault Refusal :=
  .next (s.finish false (s.overSpan fun p => checksumOk (crc8 p) false))

/-- CRC8_CHK (R131). -/
def execCrc8Chk (s : State) : Host.Outcome State Fault Refusal :=
  .next (s.finish false (s.overSpan fun p => checksumOk (crc8 p) (crcMatches (crc8 p) s.expectedCrc)))

/-- POP4 (R132). -/
def execPop4 (s : State) : Host.Outcome State Fault Refusal :=
  .next (s.finish false (s.overSpan fun p => checksumOk ((pop4s p).setWidth 8) false))

/-- POP4_CHK (R133). -/
def execPop4Chk (s : State) : Host.Outcome State Fault Refusal :=
  .next (s.finish false (s.overSpan fun p =>
    checksumOk ((pop4s p).setWidth 8) (pop4Matches (pop4s p) s.expectedPop4)))

/-- POP4B (R134): LEN is not checked. -/
def execPop4b (s : State) : Host.Outcome State Fault Refusal :=
  .next (s.finish false (checksumOk ((pop4 s.singleByte).setWidth 8) false))

/-- POP4B_CHK (R135): LEN is not checked. -/
def execPop4bChk (s : State) : Host.Outcome State Fault Refusal :=
  .next (s.finish false
    (checksumOk ((pop4 s.singleByte).setWidth 8) (pop4Matches (pop4 s.singleByte) s.expectedPop4)))

/-- A host write of `b` to CRC_DATA (R136; spec/10_state.md R37). -/
def State.streamCrc (s : State) (b : Byte) : State :=
  if s.busy then s.writeIgnored else { s with crcAcc := crcUpdate s.crcAcc b }

/-- CRC_DATA (R136): the write takes effect within its own step, with no completion. -/
def execCrcData (data : Byte) (s : State) : Host.Outcome State Fault Refusal :=
  .next (s.streamCrc data)

end Sys2Proof.Machine
end

