-- ==== Sys2Proof/Machine/Stuffing.lean ====
section
/-! DEFINITION. The stuffing family: start-byte elimination (spec/41_stuffing.md R150-R161). -/
namespace Sys2Proof.Machine

/-! ### Encoder (R150) -/

/-- The encoder's working state (R150): the output so far, the index of the open placeholder in it, the
running code counter, and the count of start bytes replaced. -/
structure Stuffer where
  q : List Byte
  ph : Nat
  code : Nat
  idx : Nat
  deriving DecidableEq, Repr

/-- "emit a placeholder code byte", code counter 1, idx 0. -/
def stufferInit : Stuffer := { q := [0x00#8], ph := 0, code := 1, idx := 0 }

/-- "emit the code" at the open placeholder. -/
def emitCode (t : Stuffer) : List Byte := t.q.set t.ph (BitVec.ofNat 8 t.code)

/-- Emits the code, opens a new placeholder, and resets the code counter to 1. -/
def closeRun (t : Stuffer) : Stuffer :=
  { q := emitCode t ++ [0x00#8], ph := t.q.length, code := 1, idx := t.idx }

/-- The body of the loop of R150. -/
def stuffStep (t : Stuffer) (b : Byte) : Stuffer :=
  if b = Config.startByte then
    let t' := closeRun t
    { t' with idx := t'.idx + 1 }
  else
    let t' := { t with q := t.q ++ [b], code := t.code + 1 }
    if t'.code = Config.flushCode then closeRun t' else t'

/-- `stuff_encode(P)` (R150): (Q, idx). -/
def stuffEncode (p : List Byte) : List Byte × Nat :=
  let t := p.foldl stuffStep stufferInit
  (emitCode t, t.idx)

/-! ### Decoder (R155) -/

/-- The loop of R155 over the part of Q that is left, with P and n so far. Each block takes at least its
code byte, so as many turns as there are bytes are enough and the branch without turns left is never
reached from `stuffDecode` (log 13). -/
def decodeBlocks : Nat → List Byte → List Byte → Nat → Except CmdError (List Byte × Nat)
  | _, [], p, n => .ok (p, n)
  | 0, _ :: _, _, _ => .error .truncated
  | turns + 1, c :: rest, p, n =>
    if c = 0x00#8 then .error .zeroCode
    else if (c :: rest).length < c.toNat then .error .truncated
    else
      let p' := p ++ rest.take (c.toNat - 1)
      let rest' := rest.drop (c.toNat - 1)
      if c.toNat ≠ Config.flushCode ∧ rest' ≠ [] then
        decodeBlocks turns rest' (p' ++ [Config.startByte]) (n + 1)
      else decodeBlocks turns rest' p' n

/-- `stuff_decode(Q, idx)` (R155), with the error order of R157. -/
def stuffDecode (q : List Byte) (idx : Nat) : Except CmdError (List Byte) :=
  if 0 < q.count Config.startByte then .error .startByteInInput
  else if q = [] then .error .truncated
  else
    match decodeBlocks q.length q [] 0 with
    | .error e => .error e
    | .ok (p, n) => if n ≠ idx then .error .indexMismatch else .ok p

/-! ### Commands -/

/-- The outcome of STUFF_ENC on a payload (R160). -/
def stuffEncOutcome (p : List Byte) : CmdOutcome :=
  let (q, idx) := stuffEncode p
  if Config.maxStuffIndex < idx then .error .stuffingOverflow
  else .ok { result := BitVec.ofNat 8 idx, bytes := q, chk := false }

/-- The outcome of STUFF_DEC on a stuffed payload (R161); `arg0` is the index as RESULT gives it back. -/
def stuffDecOutcome (idx : Nat) (arg0 : Byte) (q : List Byte) : CmdOutcome :=
  match stuffDecode q idx with
  | .error e => .error e
  | .ok p => .ok { result := arg0, bytes := p, chk := false }

/-- STUFF_ENC (R160). -/
def execStuffEnc (s : State) : Host.Outcome State Fault Refusal :=
  .next (s.finish true (s.overSpan stuffEncOutcome))

/-- STUFF_DEC (R161). -/
def execStuffDec (s : State) : Host.Outcome State Fault Refusal :=
  .next (s.finish true (s.overSpan (stuffDecOutcome s.stuffIndex s.arg0)))

end Sys2Proof.Machine
end

