-- ==== Sys2Proof/Machine/Frame.lean ====
section
/-! DEFINITION. The frame family: assembly and disassembly (spec/42_frame.md R180, R181, R190, R191; the
layout is spec/30_encoding.md R100-R106). -/
namespace Sys2Proof.Machine

/-- A metadata byte: a 6-bit value in bits 7:2 and its 2-bit checksum in bits 1:0 (R101, R102). -/
def metaByte (value : Nat) (chk : BitVec 2) : Byte :=
  (BitVec.ofNat 8 value <<< 2) ||| chk.setWidth 8

/-- Bits 7:2 of a metadata byte, PLEN or SIDX, as a natural number (R106). -/
def metaValue (b : Byte) : Nat := (b >>> 2).toNat

/-- Bits 1:0 of a metadata byte, LCHK or SCHK (R106). -/
def metaCheck (b : Byte) : BitVec 2 := b.extractLsb' 0 2

/-- `pop4` of a 6-bit length (R101). -/
def pop4Len (n : Nat) : BitVec 2 := pop4 (BitVec.ofNat 8 n)

/-- `frame_assemble(P)` (R180). -/
def frameAssemble (p : List Byte) : Except CmdError (List Byte) :=
  if Config.maxPayload < p.length then .error .payloadTooLong
  else
    let (q, idx) := stuffEncode p
    if Config.maxStuffIndex < idx then .error .stuffingOverflow
    else
      .ok ([Config.startByte, metaByte p.length (pop4Len p.length), metaByte idx (pop4s q)] ++ q ++ [crc8 p])

/-- Byte `i` of a sequence (R11). -/
def byteOf (f : List Byte) (i : Nat) : Byte := f.getD i 0x00#8

/-- The stuffed payload of a frame: `slice(F, 3, LEN - 4)` (R181). -/
def stuffedPart (f : List Byte) : List Byte := (f.drop 3).take (f.length - 4)

/-- `frame_disassemble(F)` (R181): the checks in the rule's order. -/
def frameDisassemble (f : List Byte) : Except CmdError (List Byte) :=
  if f.length < 4 then .error .frameTooShort
  else if byteOf f 0 ≠ Config.startByte then .error .badStartByte
  else if pop4Len (metaValue (byteOf f 1)) ≠ metaCheck (byteOf f 1) then .error .badLengthChecksum
  else if Config.maxPayload < metaValue (byteOf f 1) then .error .payloadTooLong
  else if pop4s (stuffedPart f) ≠ metaCheck (byteOf f 2) then .error .badStuffingChecksum
  else
    match stuffDecode (stuffedPart f) (metaValue (byteOf f 2)) with
    | .error e => .error e
    | .ok p =>
      if p.length ≠ metaValue (byteOf f 1) then .error .lengthMismatch
      else if crc8 p ≠ byteOf f (f.length - 1) then .error .badCrc
      else .ok p

/-- The outcome of FRAME_ASM on a payload (R190). -/
def frameAsmOutcome (p : List Byte) : CmdOutcome :=
  match frameAssemble p with
  | .error e => .error e
  | .ok f => .ok { result := crc8 p, bytes := f, chk := false }

/-- The outcome of FRAME_DIS on an input (R191). -/
def frameDisOutcome (f : List Byte) : CmdOutcome :=
  match frameDisassemble f with
  | .error e => .error e
  | .ok p => .ok { result := crc8 p, bytes := p, chk := false }

/-- FRAME_ASM (R190). -/
def execFrameAsm (s : State) : Host.Outcome State Fault Refusal :=
  .next (s.finish true (s.overSpan frameAsmOutcome))

/-- FRAME_DIS (R191). -/
def execFrameDis (s : State) : Host.Outcome State Fault Refusal :=
  .next (s.finish true (s.overSpan frameDisOutcome))

end Sys2Proof.Machine
end

