-- ==== Sys2Proof/Machine/Bus.lean ====
section
/-! DEFINITION. What each agent's step does: the host's reads and writes (spec/20_memory.md R62-R69), the
engine's completion (spec/10_state.md R45) and reset, and which of them the machine takes next. -/
namespace Sys2Proof.Machine

/-! ### Host reads -/

/-- The stored value of a location, which a read returns unless R69 leaves it open (R66, R69; CRC_DATA and
the reserved offsets read 0x00, R37 and R62). -/
def State.stored (s : State) : Loc → Byte
  | .cmd => s.cmd
  | .status => s.statusByte
  | .ctrl => s.ctrlByte
  | .errcode => s.errcode
  | .len => s.len
  | .arg0 => s.arg0
  | .arg1 => s.arg1
  | .result => s.result
  | .outLen => s.outLen
  | .crcAcc => s.crcAcc
  | .crcData => 0x00#8
  | .reserved => 0x00#8
  | .inBuf i => s.inByte i
  | .outBuf i => s.outByte i

/-- A read of a location while BUSY = 1 (R48, R69): `some` of what it returns where that is a fresh draw, in
all its bits or, for STATUS, in bit 2. -/
def State.readBusy (s : State) : Loc → Option Byte
  | .status => some (s.statusWith ((Config.draw s.draws).getLsbD 2))
  | .errcode => some (Config.draw s.draws)
  | .result => some (Config.draw s.draws)
  | .outLen => some (Config.draw s.draws)
  | .outBuf _ => some (Config.draw s.draws)
  | .cmd => none
  | .ctrl => none
  | .len => none
  | .arg0 => none
  | .arg1 => none
  | .crcAcc => none
  | .crcData => none
  | .reserved => none
  | .inBuf _ => none

/-- MemRead(a, 1): the port returns the byte, and nothing of the block changes (R66). A draw is counted, so
that two such reads are two draws (R48). -/
def State.hostRead (s : State) (a : Byte) : State :=
  if s.busy then
    match s.readBusy (locOf a) with
    | some b => s.countDraw.answer b
    | none => s.answer (s.stored (locOf a))
  else s.answer (s.stored (locOf a))

/-! ### Host writes -/

/-- MemWrite(a, 1, v) while BUSY = 0: the table of R67. -/
def State.writeIdle (s : State) (v : Byte) : Loc → State
  | .cmd => s.issue v
  | .status => s.ack v
  | .ctrl => s.setCtrl v
  | .errcode => s
  | .len => { s with len := v }
  | .arg0 => { s with arg0 := v }
  | .arg1 => { s with arg1 := v }
  | .result => s
  | .outLen => s
  | .crcAcc => { s with crcAcc := v }
  | .crcData => s.streamCrc v
  | .reserved => s
  | .inBuf i => s.storeIn i v
  | .outBuf _ => s

/-- MemWrite(a, 1, v) while BUSY = 1 (R68). -/
def State.writeBusy (s : State) (v : Byte) : Loc → State
  | .cmd => s.writeIgnored
  | .status => s.ack v
  | .ctrl => s.setCtrl v
  | .errcode => s
  | .len => s.writeIgnored
  | .arg0 => s.writeIgnored
  | .arg1 => s.writeIgnored
  | .result => s
  | .outLen => s
  | .crcAcc => s.writeIgnored
  | .crcData => s.streamCrc v
  | .reserved => s
  | .inBuf _ => s.writeIgnored
  | .outBuf _ => s

/-- MemWrite(a, 1, v). -/
def State.hostWrite (s : State) (a v : Byte) : State :=
  if s.busy then s.writeBusy v (locOf a) else s.writeIdle v (locOf a)

/-! ### Whose turn it is -/

/-- What the next step is: an instruction to run, or a step that runs none. -/
inductive Turn where
  | run (i : Instr) (s : State)
  | settle (o : Host.Outcome State Fault Refusal)
  deriving Repr

/-- The engine's turn (R45): enabled exactly while BUSY = 1; CMD is decoded, and an illegal opcode commits
IllegalCommand and leaves OUT as it is (spec/30_encoding.md R93). An idle engine has no step (R225; log 4). -/
def State.engineTurn (s : State) : Turn :=
  if s.busy then
    match decodeCmd s.cmd with
    | .ok i => .run i s
    | .error _ => .settle (.next (s.commitErr false .illegalCommand))
  else .settle (.next s)

/-- The host's write: the register write of the opcode table runs as an instruction, every other write is
performed as R67 and R68 say. -/
def State.writeTurn (s : State) (a v : Byte) : Turn :=
  match decodeRegWrite a v with
  | .ok i => .run i s
  | .error _ => .settle (.next (s.hostWrite a v))

/-- The event that the next step takes (spec/00_scope.md R8): the first one scheduled, or, where none is, the
engine's turn (spec/10_state.md R46; log 3, log 4). -/
def State.nextEvent (s : State) : Event := s.script.headD .complete

/-- The state with that event taken off the script. -/
def State.taken (s : State) : State := { s with script := s.script.tail }

/-- The next step of the interleaving (R8), agent by agent (R9). -/
def State.turn (s : State) : Turn :=
  match s.nextEvent with
  | .memRead a width =>
    if widthOk width then .settle (.next (s.taken.hostRead a)) else .settle (.refused (.accessWidth width))
  | .memWrite a width v => if widthOk width then s.taken.writeTurn a v else .settle (.refused (.accessWidth width))
  | .complete => s.taken.engineTurn
  | .reset => .settle (.next s.taken.resetStep)
  | .clash => .settle (.refused .simultaneousAccess)

/-- Places the host write (a, v) so that the next step runs the instruction it is: a command stands issued
(R43) with the engine's turn next, another write is the next step (log 3, log 7). -/
def State.place (s : State) (a v : Byte) : State :=
  if a = cmdOffset then { s.issue v with script := .complete :: s.script }
  else { s with script := .memWrite a 1 v :: s.script }

end Sys2Proof.Machine
end

