-- ==== Sys2Proof/Machine/Dispatch.lean ====
section
/-! DEFINITION. One arm per instruction. For a command it is the engine's completion of that command
(spec/10_state.md R45); for CRC_DATA it is the host's write (spec/40_checksum.md R136). -/
namespace Sys2Proof.Machine

def exec (i : Instr) (s : State) : Host.Outcome State Fault Refusal :=
  match i with
  | .crc8 => Sys2Proof.Machine.execCrc8 s
  | .crc8Chk => Sys2Proof.Machine.execCrc8Chk s
  | .pop4 => Sys2Proof.Machine.execPop4 s
  | .pop4Chk => Sys2Proof.Machine.execPop4Chk s
  | .pop4b => Sys2Proof.Machine.execPop4b s
  | .pop4bChk => Sys2Proof.Machine.execPop4bChk s
  | .stuffEnc => Sys2Proof.Machine.execStuffEnc s
  | .stuffDec => Sys2Proof.Machine.execStuffDec s
  | .frameAsm => Sys2Proof.Machine.execFrameAsm s
  | .frameDis => Sys2Proof.Machine.execFrameDis s
  | .crcData data => Sys2Proof.Machine.execCrcData data s

end Sys2Proof.Machine
end

