-- ==== Sys2Proof/Machine/Step.lean ====
section
/-! DEFINITION. One step of the machine, and how a table word is placed for it. -/
namespace Sys2Proof.Machine

/-- What a turn gives: its instruction run, or the step it settled. -/
def Turn.outcome : Turn → Host.Outcome State Fault Refusal
  | .run i s => exec i s
  | .settle o => o

/-- One step (spec/00_scope.md R8). -/
def step (s : State) : Host.Outcome State Fault Refusal := s.turn.outcome

/-- `s` with the instruction of a table word placed where the next step runs it (`State.place`). -/
def State.withFetchWord (s : State) (nbits w : Nat) : State :=
  s.place (tableWrite nbits w).1 (tableWrite nbits w).2

end Sys2Proof.Machine
end

