-- ==== Sys2Proof/Safety.lean ====
section
/-! DEFINITION. What counts as a safe run, and the predicates on states that claims are stated with. -/
namespace Sys2Proof

/-- The instruction is one of the ten commands of spec/30_encoding.md R92. -/
def Instr.isCommand : Instr → Bool
  | .crc8 => true
  | .crc8Chk => true
  | .pop4 => true
  | .pop4Chk => true
  | .pop4b => true
  | .pop4bChk => true
  | .stuffEnc => true
  | .stuffDec => true
  | .frameAsm => true
  | .frameDis => true
  | .crcData _ => false

/-- The byte-output commands, which write OUT at completion (spec/10_state.md R39). -/
def Instr.byteOutput : Instr → Bool
  | .crc8 => false
  | .crc8Chk => false
  | .pop4 => false
  | .pop4Chk => false
  | .pop4b => false
  | .pop4bChk => false
  | .stuffEnc => true
  | .stuffDec => true
  | .frameAsm => true
  | .frameDis => true
  | .crcData _ => false

/-- The validate commands, which write CHK_OK by a comparison (R26). -/
def Instr.validates : Instr → Bool
  | .crc8 => false
  | .crc8Chk => true
  | .pop4 => false
  | .pop4Chk => true
  | .pop4b => false
  | .pop4bChk => true
  | .stuffEnc => false
  | .stuffDec => false
  | .frameAsm => false
  | .frameDis => false
  | .crcData _ => false

/-- The commands that take the span operand: every one but POP4B and POP4B_CHK (spec/30_encoding.md R98). -/
def Instr.readsSpan : Instr → Bool
  | .crc8 => true
  | .crc8Chk => true
  | .pop4 => true
  | .pop4Chk => true
  | .pop4b => false
  | .pop4bChk => false
  | .stuffEnc => true
  | .stuffDec => true
  | .frameAsm => true
  | .frameDis => true
  | .crcData _ => false

/-- The bits of ARG0 that a command reads (R91): all for CRC8_CHK and STUFF_DEC, bits 1:0 for POP4_CHK and
POP4B_CHK, none for the others. -/
def Instr.arg0Mask : Instr → Byte
  | .crc8 => 0x00#8
  | .crc8Chk => 0xFF#8
  | .pop4 => 0x00#8
  | .pop4Chk => 0x03#8
  | .pop4b => 0x00#8
  | .pop4bChk => 0x03#8
  | .stuffEnc => 0x00#8
  | .stuffDec => 0xFF#8
  | .frameAsm => 0x00#8
  | .frameDis => 0x00#8
  | .crcData _ => 0x00#8

/-- The commands that read ARG1 (R91). -/
def Instr.readsArg1 : Instr → Bool
  | .crc8 => false
  | .crc8Chk => false
  | .pop4 => false
  | .pop4Chk => false
  | .pop4b => true
  | .pop4bChk => true
  | .stuffEnc => false
  | .stuffDec => false
  | .frameAsm => false
  | .frameDis => false
  | .crcData _ => false

end Sys2Proof

namespace Sys2Proof.Machine

/-- An event that the model does not refuse: everything but an access of another width and two agents in
one step (spec/20_memory.md R64, R79). A safe run holds admitted events only. -/
def Event.admitted : Event → Bool
  | .memRead _ width => widthOk width
  | .memWrite _ width _ => widthOk width
  | .complete => true
  | .reset => true
  | .clash => false

/-- BUSY and DONE are never both 1 (spec/10_state.md R42). -/
def State.exclusive (s : State) : Prop := ¬(s.busy = true ∧ s.done = true)

/-- The bytes listed for IN and OUT are in canonical form. -/
def State.memCanonical (s : State) : Prop := Memory.wf s.mem = true

/-- The values that ERRCODE can hold (spec/60_exceptions.md R211). -/
def errcodes : List Byte :=
  [0x00#8, 0x01#8, 0x02#8, 0x03#8, 0x04#8, 0x10#8, 0x11#8, 0x12#8, 0x13#8, 0x14#8, 0x15#8, 0x16#8, 0x17#8, 0x20#8,
    0x21#8]

/-- ERRCODE holds a value of R211's table. -/
def State.errcodeListed (s : State) : Prop := s.errcode ∈ errcodes

/-- OUT_LEN is at most 65 (spec/10_state.md R35). -/
def State.outLenBounded (s : State) : Prop := s.outLen.toNat ≤ 65

/-- The draws that unwritten bytes of IN and OUT hold have been taken, and are different draws
(spec/70_reset_and_hazards.md R241; the model's own bookkeeping, log 1 and log 2). -/
def State.drawsTaken (s : State) : Prop :=
  s.inBase + Config.inSize ≤ s.draws ∧ s.outBase + Config.outSize ≤ s.draws ∧
    (s.inBase + Config.inSize ≤ s.outBase ∨ s.outBase + Config.outSize ≤ s.inBase)

/-- The registers a completion writes hold these values, and the block is idle with DONE = 1
(spec/10_state.md R45, R47; spec/60_exceptions.md R213). -/
def State.Committed (t : State) (err result outLen : Byte) (chk : Bool) : Prop :=
  t.errcode = err ∧ t.result = result ∧ t.outLen = outLen ∧ t.chkOk = chk ∧ t.busy = false ∧ t.done = true

/-- The input operands of commands: CMD, LEN, ARG0, ARG1 and IN (spec/10_state.md R49). -/
def State.sameInputs (s t : State) : Prop :=
  t.cmd = s.cmd ∧ t.len = s.len ∧ t.arg0 = s.arg0 ∧ t.arg1 = s.arg1 ∧ ∀ i, i < 64 → t.inByte i = s.inByte i

/-- The outputs of the last command: ERRCODE, RESULT, OUT_LEN, CHK_OK and OUT (spec/20_memory.md R75). -/
def State.sameOutputs (s t : State) : Prop :=
  t.errcode = s.errcode ∧ t.result = s.result ∧ t.outLen = s.outLen ∧ t.chkOk = s.chkOk ∧
    ∀ i, i < 128 → t.outByte i = s.outByte i

/-- The offsets whose writes are ignored while BUSY = 1: CMD, LEN, ARG0, ARG1, CRC_ACC, CRC_DATA and IN
(spec/20_memory.md R68). -/
def lockedOffset (a : Byte) : Bool :=
  a == 0x00#8 || a == 0x04#8 || a == 0x05#8 || a == 0x06#8 || a == 0x09#8 || a == 0x0A#8 ||
    (decide (0x40 ≤ a.toNat) && decide (a.toNat < 0x80))

/-- `k` steps, stopping at the first that is refused: `Host.Core.run` of this machine (`run_eq_core_run`), said
over State itself. -/
def run : Nat → State → Host.Outcome State Fault Refusal
  | 0, s => .next s
  | k + 1, s =>
    match step s with
    | .next t => run k t
    | .fault f => .fault f
    | .refused r => .refused r

end Sys2Proof.Machine
end

