-- ==== Sys2Proof/Certificates/Slice0/Obligations.lean ====
section
/-! DEFINITION. The statements for the provers, each from a numbered rule of spec/. -/

open Sys2Proof Sys2Proof.Machine

/-! ### Encoding -/

/-- R92: the opcode map, written out bit by bit, and every value not listed is illegal; and the register
write of R136, whose offset is no opcode. -/
def Obligations.InstructionWordsDecode : Prop :=
  decode [0x00#8, 0b00000001#8] = .ok (.crc8, []) ∧ decode [0x00#8, 0b00000010#8] = .ok (.crc8Chk, []) ∧
  decode [0x00#8, 0b00000011#8] = .ok (.pop4, []) ∧ decode [0x00#8, 0b00000100#8] = .ok (.pop4Chk, []) ∧
  decode [0x00#8, 0b00000101#8] = .ok (.pop4b, []) ∧ decode [0x00#8, 0b00000110#8] = .ok (.pop4bChk, []) ∧
  decode [0x00#8, 0b00010000#8] = .ok (.stuffEnc, []) ∧ decode [0x00#8, 0b00010001#8] = .ok (.stuffDec, []) ∧
  decode [0x00#8, 0b00100000#8] = .ok (.frameAsm, []) ∧ decode [0x00#8, 0b00100001#8] = .ok (.frameDis, []) ∧
  decode [0b00001010#8, 0b01011100#8] = .ok (.crcData 0x5C#8, []) ∧
  ∀ op : Byte,
    op ∉ [0x01#8, 0x02#8, 0x03#8, 0x04#8, 0x05#8, 0x06#8, 0x10#8, 0x11#8, 0x20#8, 0x21#8] →
    decodeCmd op = .error (.illegalCommand op)

/-- Decoding and encoding agree, in both directions and with whatever follows: the bytes of an instruction
are the only ones that decode to it (R90, R92, R136). -/
def Obligations.DecodeInvertsEncode : Prop :=
  ∀ (bytes rest : List Byte) (i : Instr), decode bytes = .ok (i, rest) ↔ bytes = encode i ++ rest

/-! ### The step -/

/-- A step runs the decoded instruction, on the state with that event taken off the script. While BUSY = 1
the engine's turn runs the command that CMD holds (R45); with nothing scheduled the turn is the engine's
(log 4). A host write to offset 0x0A runs CRC_DATA (R136). -/
def Obligations.StepRunsDecodedInstruction : Prop :=
  (∀ (s : State) (i : Instr), s.busy = true → decode [0x00#8, s.cmd] = .ok (i, []) →
    (∀ rest, s.script = .complete :: rest → step s = exec i { s with script := rest }) ∧
    (s.script = [] → step s = exec i s)) ∧
  (∀ (s : State) (v : Byte) (rest : List Event), s.script = .memWrite 0x0A#8 1 v :: rest →
    decode [0x0A#8, v] = .ok (.crcData v, []) ∧ step s = exec (.crcData v) { s with script := rest })

/-- A table word that decodes, placed in any state, is what the next step runs: a command as issued (R43),
CRC_DATA as the host's next write (R136). How a word is placed and numbered is the model's (log 3, log 7). -/
def Obligations.PlacedTableWordRunsNext : Prop :=
  ∀ (s : State) (nbits w : Nat) (i : Instr), decodeTableWord nbits w = some i →
    step (s.withFetchWord nbits w) =
      exec i (if i.isCommand = true then { s with cmd := valueOf i, busy := true, done := false } else s)

/-- R64, R79, R240: exactly the accesses of another width and two agents in one step are refused, by names
that are the model's (log 6); every other step goes on, so that no ordinary data ends a run (R210). -/
def Obligations.OnlyRefusedAccessesStop : Prop :=
  ∀ s : State,
    (∀ a w, s.nextEvent = .memRead a w → w ≠ 1 → step s = .refused (.accessWidth w)) ∧
    (∀ a w v, s.nextEvent = .memWrite a w v → w ≠ 1 → step s = .refused (.accessWidth w)) ∧
    (s.nextEvent = .clash → step s = .refused .simultaneousAccess) ∧
    (s.nextEvent.admitted = true → ∃ t, step s = .next t ∧ t.script = s.script.tail)

/-! ### Checksum functions -/

/-- R120: the eight turns of the loop, said on natural numbers. -/
def Obligations.CrcUpdateIsTheLoop : Prop :=
  ∀ c b : Byte, (crcUpdate c b).toNat =
    (fun v : Nat => if v / 128 = 1 then (v * 2 % 256) ^^^ 7 else v * 2 % 256)^[8] (c.toNat ^^^ b.toNat)

/-- R123, the four laws of crc8. -/
def Obligations.CrcLaws : Prop :=
  (∀ s t : List Byte, crc8 (s ++ t) = t.foldl crcUpdate (crc8 s)) ∧
  (∀ s : List Byte, crc8 (s ++ [crc8 s]) = 0x00#8) ∧
  (∀ s t : List Byte, s.length = t.length → crc8 (s.zipWith (· ^^^ ·) t) = crc8 s ^^^ crc8 t) ∧
  (∀ c : Byte, ∃ b : Byte, crc8 [b] = c) ∧
  crc8 [0x8D#8] = 0xAA#8 ∧ crc8 [0xAA#8] = 0x5F#8

/-- R124 and R125: the number of 1-bits, and its sum over a span, modulo 4. -/
def Obligations.PopcountModFour : Prop :=
  (∀ b : Byte, (pop4 b).toNat = (List.range 8).countP (fun k => b.getLsbD k) % 4) ∧
  (∀ s : List Byte, (pop4s s).toNat = (s.map fun b => (List.range 8).countP (fun k => b.getLsbD k)).sum % 4) ∧
  pop4s [] = 0#2 ∧ (∀ b : Byte, pop4s [b] = pop4 b) ∧
  (∀ s t : List Byte, pop4s (s ++ t) = pop4s s + pop4s t)

/-! ### Checksum commands -/

/-- R130. -/
def Obligations.Crc8Completes : Prop :=
  ∀ s : State,
    (s.len.toNat ≤ 64 → exec .crc8 s = .next { s with
      errcode := 0x00#8, result := crc8 (s.inBytes s.len.toNat), outLen := 0x00#8, chkOk := false,
      busy := false, done := true }) ∧
    (64 < s.len.toNat → exec .crc8 s = .next { s with
      errcode := 0x20#8, result := 0x00#8, outLen := 0x00#8, chkOk := false, busy := false, done := true })

/-- R131: a mismatch is no error. -/
def Obligations.Crc8ChkCompletes : Prop :=
  ∀ s : State,
    (s.len.toNat ≤ 64 → exec .crc8Chk s = .next { s with
      errcode := 0x00#8, result := crc8 (s.inBytes s.len.toNat), outLen := 0x00#8,
      chkOk := decide (crc8 (s.inBytes s.len.toNat) = s.arg0), busy := false, done := true }) ∧
    (64 < s.len.toNat → exec .crc8Chk s = .next { s with
      errcode := 0x20#8, result := 0x00#8, outLen := 0x00#8, chkOk := false, busy := false, done := true })

/-- R132. -/
def Obligations.Pop4Completes : Prop :=
  ∀ s : State,
    (s.len.toNat ≤ 64 → exec .pop4 s = .next { s with
      errcode := 0x00#8, result := BitVec.ofNat 8 (((s.inBytes s.len.toNat).map popcount).sum % 4),
      outLen := 0x00#8, chkOk := false, busy := false, done := true }) ∧
    (64 < s.len.toNat → exec .pop4 s = .next { s with
      errcode := 0x20#8, result := 0x00#8, outLen := 0x00#8, chkOk := false, busy := false, done := true })

/-- R133: bits 7:2 of ARG0 are not compared, and a mismatch is no error. -/
def Obligations.Pop4ChkCompletes : Prop :=
  ∀ s : State,
    (s.len.toNat ≤ 64 → exec .pop4Chk s = .next { s with
      errcode := 0x00#8, result := BitVec.ofNat 8 (((s.inBytes s.len.toNat).map popcount).sum % 4),
      outLen := 0x00#8,
      chkOk := decide (((s.inBytes s.len.toNat).map popcount).sum % 4 = s.arg0.toNat % 4),
      busy := false, done := true }) ∧
    (64 < s.len.toNat → exec .pop4Chk s = .next { s with
      errcode := 0x20#8, result := 0x00#8, outLen := 0x00#8, chkOk := false, busy := false, done := true })

/-- R134: whatever LEN is. -/
def Obligations.Pop4bCompletes : Prop :=
  ∀ s : State, exec .pop4b s = .next { s with
    errcode := 0x00#8, result := BitVec.ofNat 8 (popcount s.arg1 % 4), outLen := 0x00#8, chkOk := false,
    busy := false, done := true }

/-- R135: whatever LEN is. -/
def Obligations.Pop4bChkCompletes : Prop :=
  ∀ s : State, exec .pop4bChk s = .next { s with
    errcode := 0x00#8, result := BitVec.ofNat 8 (popcount s.arg1 % 4), outLen := 0x00#8,
    chkOk := decide (popcount s.arg1 % 4 = s.arg0.toNat % 4), busy := false, done := true }

/-- R136: with BUSY = 0 one byte goes into CRC_ACC, with BUSY = 1 the write is ignored and sets WIGN. -/
def Obligations.CrcDataStreamsOneByte : Prop :=
  ∀ (s : State) (b : Byte),
    (s.busy = false → exec (.crcData b) s = .next { s with crcAcc := crcUpdate s.crcAcc b }) ∧
    (s.busy = true → exec (.crcData b) s = .next { s with wign := true })

/-- R136: while BUSY = 0, writing the bytes of a span in order folds them into CRC_ACC, and from 0x00 that
leaves their crc8. -/
def Obligations.StreamingEqualsCrc8 : Prop :=
  ∀ (s : State) (bytes : List Byte) (rest : List Event), s.busy = false → s.crcAcc = 0x00#8 →
    s.script = bytes.map (fun b => Event.memWrite 0x0A#8 1 b) ++ rest →
    run bytes.length s = .next { s with crcAcc := crc8 bytes, script := rest }

/-! ### Stuffing functions -/

/-- R150, run by run: a run of at most 253 bytes before a start byte, a last run, and the flush of a run of
254 bytes. -/
def Obligations.StuffEncodeByRuns : Prop :=
  (∀ r : List Byte, r.count 0xAA#8 = 0 → r.length ≤ 253 →
    stuffEncode r = (BitVec.ofNat 8 (r.length + 1) :: r, 0)) ∧
  (∀ r rest : List Byte, r.count 0xAA#8 = 0 → r.length ≤ 253 →
    stuffEncode (r ++ 0xAA#8 :: rest) =
      (BitVec.ofNat 8 (r.length + 1) :: r ++ (stuffEncode rest).1, (stuffEncode rest).2 + 1)) ∧
  (∀ r rest : List Byte, r.count 0xAA#8 = 0 → r.length = 254 →
    stuffEncode (r ++ rest) = (0xFF#8 :: r ++ (stuffEncode rest).1, (stuffEncode rest).2))

/-- R151, for payloads of every length. -/
def Obligations.StuffIndexCountsStartBytes : Prop :=
  ∀ p : List Byte, (stuffEncode p).2 = p.count 0xAA#8

/-- R153 and R154 in the block: one byte more than the payload, and no start byte. -/
def Obligations.StuffedPayloadShape : Prop :=
  ∀ p : List Byte, p.length ≤ 64 →
    (stuffEncode p).1.length = p.length + 1 ∧ (stuffEncode p).1.count 0xAA#8 = 0

/-- R162. -/
def Obligations.StuffRoundTrip : Prop :=
  ∀ p : List Byte, p.length ≤ 64 → p.count 0xAA#8 ≤ 63 →
    stuffDecode (stuffEncode p).1 (stuffEncode p).2 = .ok p

/-- R164. -/
def Obligations.StuffCanonicalForm : Prop :=
  ∀ (q p : List Byte) (idx : Nat), q.length ≤ 64 → stuffDecode q idx = .ok p →
    stuffEncode p = (q, idx) ∧ p.length + 1 = q.length

/-- R155 and R156: on well-formed blocks with codes below 0xFF the decoder gives the runs joined by start
bytes, and any index but their number less one is a mismatch. -/
def Obligations.StuffDecodeByBlocks : Prop :=
  ∀ (runs : List (List Byte)) (idx : Nat), runs ≠ [] → (∀ r ∈ runs, r.length ≤ 253) →
    (runs.flatMap fun r => BitVec.ofNat 8 (r.length + 1) :: r).count 0xAA#8 = 0 →
    stuffDecode (runs.flatMap fun r => BitVec.ofNat 8 (r.length + 1) :: r) idx =
      if idx + 1 = runs.length then .ok ([0xAA#8].intercalate runs) else .error .indexMismatch

/-- R157 to R159: a start byte anywhere is reported before all else, then the empty input, then the first
block at fault, whatever the index is. -/
def Obligations.DecoderErrorOrder : Prop :=
  (∀ (q : List Byte) (idx : Nat), 0xAA#8 ∈ q → stuffDecode q idx = .error .startByteInInput) ∧
  (∀ idx : Nat, stuffDecode [] idx = .error .truncated) ∧
  (∀ (runs : List (List Byte)) (tail : List Byte) (idx : Nat), (∀ r ∈ runs, r.length ≤ 254) →
    0xAA#8 ∉ (runs.flatMap fun r => BitVec.ofNat 8 (r.length + 1) :: r) ++ 0x00#8 :: tail →
    stuffDecode ((runs.flatMap fun r => BitVec.ofNat 8 (r.length + 1) :: r) ++ 0x00#8 :: tail) idx =
      .error .zeroCode) ∧
  (∀ (runs : List (List Byte)) (c : Byte) (tail : List Byte) (idx : Nat), (∀ r ∈ runs, r.length ≤ 254) →
    tail.length + 1 < c.toNat →
    0xAA#8 ∉ (runs.flatMap fun r => BitVec.ofNat 8 (r.length + 1) :: r) ++ c :: tail →
    stuffDecode ((runs.flatMap fun r => BitVec.ofNat 8 (r.length + 1) :: r) ++ c :: tail) idx = .error .truncated)

/-! ### Stuffing commands -/

/-- R160. -/
def Obligations.StuffEncCompletes : Prop :=
  ∀ s : State,
    (s.len.toNat ≤ 64 → (s.inBytes s.len.toNat).count 0xAA#8 ≤ 63 →
      ∃ t, exec .stuffEnc s = .next t ∧
        t.Committed 0x00#8 (BitVec.ofNat 8 ((s.inBytes s.len.toNat).count 0xAA#8)) (s.len + 1#8) false ∧
        t.outBytes (s.len.toNat + 1) = (stuffEncode (s.inBytes s.len.toNat)).1) ∧
    (s.len.toNat ≤ 64 → 63 < (s.inBytes s.len.toNat).count 0xAA#8 →
      ∃ t, exec .stuffEnc s = .next t ∧ t.Committed 0x16#8 0x00#8 0x00#8 false) ∧
    (64 < s.len.toNat → ∃ t, exec .stuffEnc s = .next t ∧ t.Committed 0x20#8 0x00#8 0x00#8 false)

/-- R161. -/
def Obligations.StuffDecCompletes : Prop :=
  ∀ s : State,
    (∀ p, s.len.toNat ≤ 64 → stuffDecode (s.inBytes s.len.toNat) s.arg0.toNat = .ok p →
      ∃ t, exec .stuffDec s = .next t ∧ t.Committed 0x00#8 s.arg0 (s.len - 1#8) false ∧
        p.length + 1 = s.len.toNat ∧ t.outBytes p.length = p) ∧
    (∀ e, s.len.toNat ≤ 64 → stuffDecode (s.inBytes s.len.toNat) s.arg0.toNat = .error e →
      ∃ t, exec .stuffDec s = .next t ∧ t.Committed e.code 0x00#8 0x00#8 false) ∧
    (64 < s.len.toNat → ∃ t, exec .stuffDec s = .next t ∧ t.Committed 0x20#8 0x00#8 0x00#8 false)

/-- R162 on the machine: STUFF_DEC, given what STUFF_ENC left in OUT with OUT_LEN and RESULT, gives the
payload back. -/
def Obligations.StuffCommandsRoundTrip : Prop :=
  ∀ s t u : State, s.len.toNat ≤ 63 → exec .stuffEnc s = .next t →
    u.len = t.outLen → u.arg0 = t.result → (∀ k, k < t.outLen.toNat → u.inByte k = t.outByte k) →
    ∃ v, exec .stuffDec u = .next v ∧ v.errcode = 0x00#8 ∧ v.outLen = s.len ∧
      ∀ k, k < s.len.toNat → v.outByte k = s.inByte k

/-! ### Frame functions -/

/-- R182. -/
def Obligations.AssembledFrameShape : Prop :=
  (∀ p : List Byte, p.length ≤ 28 →
    ∃ f, frameAssemble p = .ok f ∧ f.length = p.length + 5 ∧ (f.drop 3).take (p.length + 1) = (stuffEncode p).1 ∧
      f.getD 1 0#8 = (BitVec.ofNat 8 p.length <<< 2) ||| (pop4 (BitVec.ofNat 8 p.length)).setWidth 8 ∧
      (f.getD 1 0#8).toNat ≤ 0x73 ∧ (f.getD 2 0#8).toNat ≤ 0x73 ∧
      ∀ k, 1 ≤ k → k ≤ f.length - 2 → f.getD k 0#8 ≠ 0xAA#8) ∧
  frameAssemble [0x8D#8] = .ok [0xAA#8, 0x05#8, 0x01#8, 0x02#8, 0x8D#8, 0xAA#8]

/-- R183. -/
def Obligations.FrameRoundTrip : Prop :=
  ∀ p : List Byte, p.length ≤ 28 → ∃ f, frameAssemble p = .ok f ∧ frameDisassemble f = .ok p

/-- R184, with the error that each flipped bit gives. -/
def Obligations.SingleBitFlipsAreCaught : Prop :=
  ∀ (p f : List Byte) (i k : Nat), p.length ≤ 28 → frameAssemble p = .ok f → 1 ≤ i → i < f.length → k < 8 →
    frameDisassemble (f.set i (f.getD i 0#8 ^^^ BitVec.ofNat 8 (2 ^ k))) =
      .error (if i = 1 then .badLengthChecksum
        else if i = f.length - 1 then .badCrc
        else if i = 2 ∧ 2 ≤ k then .indexMismatch
        else .badStuffingChecksum)

/-- R185: the block accepts exactly one frame per payload. -/
def Obligations.OnlyCanonicalFramesAccepted : Prop :=
  ∀ f p : List Byte, f.length ≤ 64 →
    (frameDisassemble f = .ok p ↔ frameAssemble p = .ok f ∧ p.length ≤ 28)

/-- R181: the checks in their order, the fields read as numbers. -/
def Obligations.DisassembleChecksInOrder : Prop :=
  ∀ f : List Byte, frameDisassemble f =
    if f.length < 4 then .error .frameTooShort
    else if f.getD 0 0#8 ≠ 0xAA#8 then .error .badStartByte
    else if popcount (BitVec.ofNat 8 ((f.getD 1 0#8).toNat / 4)) % 4 ≠ (f.getD 1 0#8).toNat % 4 then
      .error .badLengthChecksum
    else if 28 < (f.getD 1 0#8).toNat / 4 then .error .payloadTooLong
    else if (((f.drop 3).take (f.length - 4)).map popcount).sum % 4 ≠ (f.getD 2 0#8).toNat % 4 then
      .error .badStuffingChecksum
    else
      match stuffDecode ((f.drop 3).take (f.length - 4)) ((f.getD 2 0#8).toNat / 4) with
      | .error e => .error e
      | .ok p =>
        if p.length ≠ (f.getD 1 0#8).toNat / 4 then .error .lengthMismatch
        else if crc8 p ≠ f.getD (f.length - 1) 0#8 then .error .badCrc
        else .ok p

/-! ### Frame commands -/

/-- R190. -/
def Obligations.FrameAsmCompletes : Prop :=
  ∀ s : State,
    (s.len.toNat ≤ 28 →
      ∃ t, exec .frameAsm s = .next t ∧ t.Committed 0x00#8 (crc8 (s.inBytes s.len.toNat)) (s.len + 5#8) false ∧
        t.outBytes (s.len.toNat + 5) =
          [0xAA#8, (s.len <<< 2) ||| (pop4 s.len).setWidth 8,
            (BitVec.ofNat 8 (stuffEncode (s.inBytes s.len.toNat)).2 <<< 2) |||
              (pop4s (stuffEncode (s.inBytes s.len.toNat)).1).setWidth 8] ++
          (stuffEncode (s.inBytes s.len.toNat)).1 ++ [crc8 (s.inBytes s.len.toNat)]) ∧
    (28 < s.len.toNat → s.len.toNat ≤ 64 →
      ∃ t, exec .frameAsm s = .next t ∧ t.Committed 0x15#8 0x00#8 0x00#8 false) ∧
    (64 < s.len.toNat → ∃ t, exec .frameAsm s = .next t ∧ t.Committed 0x20#8 0x00#8 0x00#8 false)

/-- R191. -/
def Obligations.FrameDisCompletes : Prop :=
  ∀ s : State,
    (∀ p, s.len.toNat ≤ 64 → frameDisassemble (s.inBytes s.len.toNat) = .ok p →
      ∃ t, exec .frameDis s = .next t ∧ t.Committed 0x00#8 (crc8 p) (s.len - 5#8) false ∧
        crc8 p = s.inByte (s.len.toNat - 1) ∧ p.length = (s.inByte 1).toNat / 4 ∧ p.length + 5 = s.len.toNat ∧
        t.outBytes p.length = p) ∧
    (∀ e, s.len.toNat ≤ 64 → frameDisassemble (s.inBytes s.len.toNat) = .error e →
      ∃ t, exec .frameDis s = .next t ∧ t.Committed e.code 0x00#8 0x00#8 false) ∧
    (64 < s.len.toNat → ∃ t, exec .frameDis s = .next t ∧ t.Committed 0x20#8 0x00#8 0x00#8 false)

/-- R183 on the machine: FRAME_DIS, given what FRAME_ASM left in OUT with OUT_LEN, accepts it and gives the
payload and its CRC back. -/
def Obligations.FrameCommandsRoundTrip : Prop :=
  ∀ s t u : State, s.len.toNat ≤ 28 → exec .frameAsm s = .next t →
    u.len = t.outLen → (∀ k, k < t.outLen.toNat → u.inByte k = t.outByte k) →
    ∃ v, exec .frameDis u = .next v ∧ v.errcode = 0x00#8 ∧ v.outLen = s.len ∧ v.result = t.result ∧
      ∀ k, k < s.len.toNat → v.outByte k = s.inByte k

/-! ### What every command does and leaves alone -/

/-- The ERRCODE values of R211. -/
def Obligations.ErrorCodesAsTabulated : Prop :=
  CmdError.zeroCode.code = 0x01#8 ∧ CmdError.truncated.code = 0x02#8 ∧ CmdError.indexMismatch.code = 0x03#8 ∧
  CmdError.startByteInInput.code = 0x04#8 ∧ CmdError.badStartByte.code = 0x10#8 ∧
  CmdError.badLengthChecksum.code = 0x11#8 ∧ CmdError.badStuffingChecksum.code = 0x12#8 ∧
  CmdError.lengthMismatch.code = 0x13#8 ∧ CmdError.badCrc.code = 0x14#8 ∧ CmdError.payloadTooLong.code = 0x15#8 ∧
  CmdError.stuffingOverflow.code = 0x16#8 ∧ CmdError.frameTooShort.code = 0x17#8 ∧
  CmdError.badLength.code = 0x20#8 ∧ CmdError.illegalCommand.code = 0x21#8

/-- The frame of all eleven instructions. A command writes only ERRCODE, RESULT, OUT_LEN, STATUS bits 0 to 2
and, if it is one of STUFF_ENC, STUFF_DEC, FRAME_ASM and FRAME_DIS, OUT (R72, R210); CRC_DATA writes only
CRC_ACC or, while BUSY = 1, WIGN (R136). The fields draws, readData and script are the
model's own (log 1, log 2, log 3, log 5). -/
def Obligations.InstructionsFrame : Prop :=
  (∀ (i : Instr) (s t : State), i.isCommand = true → exec i s = .next t →
    t.cmd = s.cmd ∧ t.len = s.len ∧ t.arg0 = s.arg0 ∧ t.arg1 = s.arg1 ∧ t.crcAcc = s.crcAcc ∧ t.ie = s.ie ∧
    t.wign = s.wign ∧ t.readData = s.readData ∧ t.script = s.script ∧
    (∀ a, a < 0x80 → t.byteAt a = s.byteAt a)) ∧
  (∀ (i : Instr) (s t : State), i.isCommand = true → i.byteOutput = false → exec i s = .next t →
    (∀ a, t.byteAt a = s.byteAt a) ∧ t.draws = s.draws) ∧
  (∀ (b : Byte) (s t : State), exec (.crcData b) s = .next t →
    t = { s with crcAcc := t.crcAcc, wign := t.wign } ∧ (∀ a, t.byteAt a = s.byteAt a) ∧
    (s.busy = true → t.crcAcc = s.crcAcc) ∧ (s.busy = false → t.wign = s.wign))

/-- R213 and R26: an error outcome clears RESULT, OUT_LEN and CHK_OK, and only a validate command that
succeeds sets CHK_OK. -/
def Obligations.ErrorOutcomesClearResults : Prop :=
  ∀ (i : Instr) (s t : State), i.isCommand = true → exec i s = .next t →
    t.busy = false ∧ t.done = true ∧
    (t.errcode ≠ 0x00#8 → t.result = 0x00#8 ∧ t.outLen = 0x00#8 ∧ t.chkOk = false) ∧
    (t.chkOk = true → i.validates = true ∧ t.errcode = 0x00#8)

/-- R247 (R47, R213), in the model's form of a draw (log 1, log 2): after a byte-output command each byte of
OUT from OUT_LEN on holds a draw that was not taken before. -/
def Obligations.OutPastOutLenIsDrawn : Prop :=
  ∀ (i : Instr) (s t : State) (k : Nat), i.byteOutput = true → exec i s = .next t →
    t.outLen.toNat ≤ k → k < 128 →
    t.outByte k = Config.draw (s.draws + k) ∧ s.draws + k < t.draws

/-- R72: a command's outcome depends only on the operands its rule names: LEN and IN[0 .. LEN-1] for the span
commands, the bits of ARG0 and ARG1 that R91 gives. -/
def Obligations.CommandsReadOnlyTheirOperands : Prop :=
  ∀ (i : Instr) (s s' t t' : State), i.isCommand = true → exec i s = .next t → exec i s' = .next t' →
    (i.readsSpan = true → s.len = s'.len ∧ (s.len.toNat ≤ 64 → ∀ k, k < s.len.toNat → s.inByte k = s'.inByte k)) →
    s.arg0 &&& i.arg0Mask = s'.arg0 &&& i.arg0Mask → (i.readsArg1 = true → s.arg1 = s'.arg1) →
    t.errcode = t'.errcode ∧ t.result = t'.result ∧ t.outLen = t'.outLen ∧ t.chkOk = t'.chkOk ∧
    (i.byteOutput = true → ∀ k, k < t.outLen.toNat → t.outByte k = t'.outByte k)

/-- R93: the illegal opcodes, at issue and at completion. -/
def Obligations.IllegalOpcodesComplete : Prop :=
  ∀ (s : State) (op : Byte),
    (op.toNat = 0 ∨ (0x07 ≤ op.toNat ∧ op.toNat ≤ 0x0F) ∨ (0x12 ≤ op.toNat ∧ op.toNat ≤ 0x1F) ∨ 0x22 ≤ op.toNat) →
    (∀ rest, s.busy = false → s.script = .memWrite 0x00#8 1 op :: rest →
      step s = .next { s with cmd := op, done := false, busy := true, script := rest }) ∧
    (∀ rest, s.busy = true → s.cmd = op → s.script = .complete :: rest →
      step s = .next { s with
        errcode := 0x21#8, result := 0x00#8, outLen := 0x00#8, chkOk := false, busy := false, done := true,
        script := rest })

/-! ### Host accesses -/

/-- R67: the effect of a host write while BUSY = 0, offset by offset (issue is R43's). -/
def Obligations.WritesWhileIdle : Prop :=
  ∀ (s : State) (a v : Byte) (rest : List Event), s.busy = false → s.script = .memWrite a 1 v :: rest →
    ((a.toNat < 0x40 ∨ 0x80 ≤ a.toNat) →
      step s = .next (
        if a = 0x00#8 then { s with cmd := v, done := false, busy := true, script := rest }
        else if a = 0x01#8 then
          { s with done := s.done && !v.getLsbD 1, wign := s.wign && !v.getLsbD 3, script := rest }
        else if a = 0x02#8 then { s with ie := v.getLsbD 0, script := rest }
        else if a = 0x04#8 then { s with len := v, script := rest }
        else if a = 0x05#8 then { s with arg0 := v, script := rest }
        else if a = 0x06#8 then { s with arg1 := v, script := rest }
        else if a = 0x09#8 then { s with crcAcc := v, script := rest }
        else if a = 0x0A#8 then { s with crcAcc := crcUpdate s.crcAcc v, script := rest }
        else { s with script := rest })) ∧
    (0x40 ≤ a.toNat → a.toNat < 0x80 →
      ∃ t, step s = .next t ∧ t = { s with mem := t.mem, script := rest } ∧
        ∀ x, t.byteAt x = if x = a.toNat then v else s.byteAt x)

/-- R68: a host write while BUSY = 1. -/
def Obligations.WritesWhileBusy : Prop :=
  ∀ (s : State) (a v : Byte) (rest : List Event), s.busy = true → s.script = .memWrite a 1 v :: rest →
    step s = .next (
      if a ∈ [0x00#8, 0x04#8, 0x05#8, 0x06#8, 0x09#8, 0x0A#8] ∨ (0x40 ≤ a.toNat ∧ a.toNat < 0x80) then
        { s with wign := true, script := rest }
      else if a = 0x01#8 then
        { s with done := s.done && !v.getLsbD 1, wign := s.wign && !v.getLsbD 3, script := rest }
      else if a = 0x02#8 then { s with ie := v.getLsbD 0, script := rest }
      else { s with script := rest })

/-- R62: the reserved offsets, whether or not BUSY = 1. -/
def Obligations.ReservedOffsetsReadZero : Prop :=
  ∀ (s : State) (a v : Byte) (rest : List Event), 0x0B ≤ a.toNat → a.toNat ≤ 0x3F →
    (s.script = .memRead a 1 :: rest → step s = .next { s with readData := some 0x00#8, script := rest }) ∧
    (s.script = .memWrite a 1 v :: rest → step s = .next { s with script := rest })

/-- R22, R28, R29, R37, R38, R39, R66: a read while BUSY = 0 returns the stored value and changes nothing else. -/
def Obligations.ReadsWhileIdle : Prop :=
  ∀ (s : State) (a : Byte) (rest : List Event), s.busy = false → s.script = .memRead a 1 :: rest →
    ∃ b, step s = .next { s with readData := some b, script := rest } ∧
      (a = 0x00#8 → b = s.cmd) ∧
      (a = 0x01#8 → b.getLsbD 0 = false ∧ b.getLsbD 1 = s.done ∧ b.getLsbD 2 = s.chkOk ∧ b.getLsbD 3 = s.wign ∧
        b >>> 4 = 0#8) ∧
      (a = 0x02#8 → b.getLsbD 0 = s.ie ∧ b >>> 1 = 0#8) ∧
      (a = 0x03#8 → b = s.errcode) ∧ (a = 0x04#8 → b = s.len) ∧ (a = 0x05#8 → b = s.arg0) ∧
      (a = 0x06#8 → b = s.arg1) ∧ (a = 0x07#8 → b = s.result) ∧ (a = 0x08#8 → b = s.outLen) ∧
      (a = 0x09#8 → b = s.crcAcc) ∧ (a = 0x0A#8 → b = 0x00#8) ∧
      (0x40 ≤ a.toNat → a.toNat < 0x80 → b = s.inByte (a.toNat - 0x40)) ∧
      (0x80 ≤ a.toNat → b = s.outByte (a.toNat - 0x80))

/-- R48 and R69, in the model's form of a draw (log 1): while BUSY = 1 a read of ERRCODE, RESULT, OUT_LEN or
OUT returns the next draw and STATUS bit 2 is a bit of it, each such read counting a draw of its own; the
other STATUS bits and the other registers read as stored. -/
def Obligations.ReadsWhileBusy : Prop :=
  ∀ (s : State) (a : Byte) (rest : List Event), s.busy = true → s.script = .memRead a 1 :: rest →
    (a ∈ [0x03#8, 0x07#8, 0x08#8] ∨ 0x80 ≤ a.toNat →
      step s = .next { s with readData := some (Config.draw s.draws), draws := s.draws + 1, script := rest }) ∧
    (a = 0x01#8 → ∃ b, step s = .next { s with readData := some b, draws := s.draws + 1, script := rest } ∧
      b.getLsbD 0 = true ∧ b.getLsbD 1 = s.done ∧ b.getLsbD 2 = (Config.draw s.draws).getLsbD 2 ∧
      b.getLsbD 3 = s.wign ∧ b >>> 4 = 0#8) ∧
    (a ∉ [0x01#8, 0x03#8, 0x07#8, 0x08#8] → a.toNat < 0x80 →
      step s = .next { s with readData := some (s.stored (locOf a)), script := rest })

/-- R27: WIGN is set by an ignored write and by nothing else, and only a W1C write or a reset clears it. -/
def Obligations.WignIsSticky : Prop :=
  ∀ s t : State, step s = .next t →
    (s.wign = false → (t.wign = true ↔ s.busy = true ∧ ∃ a v, s.nextEvent = .memWrite a 1 v ∧ lockedOffset a = true)) ∧
    (s.wign = true → (t.wign = false ↔
      s.nextEvent = .reset ∨ ∃ v, s.nextEvent = .memWrite 0x01#8 1 v ∧ v.getLsbD 3 = true))

/-- R219: irq follows completion, issue, acknowledgement, IE and reset, and rises at nothing else. -/
def Obligations.IrqIsALevel : Prop :=
  (∀ (i : Instr) (s t : State), i.isCommand = true → exec i s = .next t → t.irq = s.ie) ∧
  (∀ s t : State, step s = .next t →
    (∀ v, s.busy = false → s.nextEvent = .memWrite 0x00#8 1 v → t.irq = false) ∧
    (∀ v, v.getLsbD 1 = true → s.nextEvent = .memWrite 0x01#8 1 v → t.irq = false) ∧
    (∀ v, s.nextEvent = .memWrite 0x02#8 1 v → t.irq = (s.done && v.getLsbD 0)) ∧
    (s.nextEvent = .reset → t.irq = false) ∧
    (s.irq = false → t.irq = true →
      (s.busy = true ∧ s.nextEvent = .complete) ∨ ∃ v, s.nextEvent = .memWrite 0x02#8 1 v ∧ v.getLsbD 0 = true))

/-! ### Whole-machine rules -/

/-- R49: while BUSY = 1 no step but a reset changes an input operand. -/
def Obligations.InputsFrozenWhileBusy : Prop :=
  ∀ s t : State, s.busy = true → s.nextEvent ≠ .reset → step s = .next t → s.sameInputs t

/-- R75: once the block is idle, the committed outputs stay until the next issue or reset. -/
def Obligations.OutputsStableUntilIssueOrReset : Prop :=
  ∀ s t : State, s.busy = false → s.nextEvent ≠ .reset → (∀ w v, s.nextEvent ≠ .memWrite 0x00#8 w v) →
    step s = .next t → s.sameOutputs t ∧ t.busy = false

/-- R38 and R39 (R241): a byte of IN changes only by a reset or by a host write to it while BUSY = 0; a byte
of OUT only by a reset or by the completion of a byte-output command. -/
def Obligations.BuffersStable : Prop :=
  ∀ (s t : State) (k : Nat), step s = .next t → s.nextEvent ≠ .reset →
    (k < 64 → t.inByte k ≠ s.inByte k →
      s.busy = false ∧ ∃ a v, s.nextEvent = .memWrite a 1 v ∧ a.toNat = 0x40 + k ∧ t.inByte k = v) ∧
    (k < 128 → t.outByte k ≠ s.outByte k →
      s.busy = true ∧ s.nextEvent = .complete ∧ ∃ i, decodeCmd s.cmd = .ok i ∧ i.byteOutput = true)

/-- R45 and R225: the engine's turn does nothing while BUSY = 0 (the model's stutter, log 4). -/
def Obligations.IdleEngineDoesNothing : Prop :=
  ∀ s : State, s.busy = false →
    (s.script = [] → step s = .next s) ∧
    (∀ rest, s.script = .complete :: rest → step s = .next { s with script := rest })

/-- R46, as a bound in steps that the script gives (log 3, log 4, log 16): a pending command completes, unless a reset
discards it, once the events scheduled before its completion are taken. -/
def Obligations.PendingCommandCompletes : Prop :=
  ∀ s : State, s.busy = true → (∀ e ∈ s.script, e.admitted = true) →
    ∃ k t, 1 ≤ k ∧ k ≤ s.script.length + 1 ∧ run k s = .next t ∧ t.busy = false ∧
      (Event.reset ∉ s.script → t.done = true)

/-! ### Reset -/

/-- R240: what the reset step leaves in the registers, and R243: the state after power-on has them so too. The
clause that the rest of the script stays is no rule of the spec but the model's choice (log 17). -/
def Obligations.ResetClearsRegisters : Prop :=
  (∀ (s : State) (rest : List Event), s.script = .reset :: rest →
    ∃ t, step s = .next t ∧ t.cmd = 0x00#8 ∧ t.statusByte = 0x00#8 ∧ t.ctrlByte = 0x00#8 ∧ t.errcode = 0x00#8 ∧
      t.len = 0x00#8 ∧ t.arg0 = 0x00#8 ∧ t.arg1 = 0x00#8 ∧ t.result = 0x00#8 ∧ t.outLen = 0x00#8 ∧
      t.crcAcc = 0x00#8 ∧ t.busy = false ∧ t.done = false ∧ t.irq = false ∧ t.script = rest) ∧
  (State.reset.cmd = 0x00#8 ∧ State.reset.statusByte = 0x00#8 ∧ State.reset.ctrlByte = 0x00#8 ∧
    State.reset.errcode = 0x00#8 ∧ State.reset.len = 0x00#8 ∧ State.reset.arg0 = 0x00#8 ∧ State.reset.arg1 = 0x00#8 ∧
    State.reset.result = 0x00#8 ∧ State.reset.outLen = 0x00#8 ∧ State.reset.crcAcc = 0x00#8 ∧
    State.reset.irq = false)

/-- R241, in the model's form of a draw (log 1, log 2): a reset leaves in each byte of IN and OUT a draw of its
own that was not taken before. -/
def Obligations.ResetDrawsBuffers : Prop :=
  ∀ (s : State) (rest : List Event), s.script = .reset :: rest →
    ∃ t, step s = .next t ∧ (∀ k, k < 64 → t.inByte k = Config.draw (s.draws + k)) ∧
      (∀ k, k < 128 → t.outByte k = Config.draw (s.draws + 64 + k)) ∧ t.draws = s.draws + 192

/-! ### Invariants of every step -/

/-- R42. -/
def Obligations.BusyAndDoneStayExclusive : Prop :=
  ∀ s t : State, s.exclusive → step s = .next t → t.exclusive

/-- The list of written bytes of IN and OUT keeps its canonical form (log 2). -/
def Obligations.MemoryStaysCanonical : Prop :=
  ∀ s t : State, s.memCanonical → step s = .next t → t.memCanonical

/-- R211: no other value is ever written to ERRCODE. -/
def Obligations.ErrcodeStaysListed : Prop :=
  ∀ s t : State, s.errcodeListed → step s = .next t → t.errcodeListed

/-- R35: no command gives more than 65 bytes. -/
def Obligations.OutLenStaysBounded : Prop :=
  ∀ s t : State, s.outLenBounded → step s = .next t → t.outLenBounded

/-- The model's own bookkeeping (log 1, log 2): the unwritten bytes of IN and OUT hold draws already taken,
none of them twice, and the count of draws never falls. -/
def Obligations.DrawsStayTaken : Prop :=
  ∀ s t : State, s.drawsTaken → step s = .next t → t.drawsTaken ∧ s.draws ≤ t.draws

/-- The state after power-on (R240, R241, R243) meets all five invariants. BUSY and DONE are R42's, the values of
ERRCODE R211's, the bound of OUT_LEN R35's. The other two are the model's choice: memCanonical is its form of IN and
OUT (R61; log 2), and drawsTaken its bookkeeping of the unspecified bytes that R241 asks for (log 1, log 2). -/
def Obligations.ResetMeetsInvariants : Prop :=
  State.reset.exclusive ∧ State.reset.memCanonical ∧ State.reset.errcodeListed ∧ State.reset.outLenBounded ∧
    State.reset.drawsTaken
end

