-- ==== Sys2Proof/Laws/State.lean ====
section
/-! SUPPORT. One lemma per field per update of the state: what each named operation writes, and that it leaves
every other field. -/
namespace Sys2Proof.Machine

variable (s : State)

/-! ### storeIn -/

@[simp] theorem State.storeIn_cmd (i : Nat) (v : Byte) : (s.storeIn i v).cmd = s.cmd := rfl
@[simp] theorem State.storeIn_busy (i : Nat) (v : Byte) : (s.storeIn i v).busy = s.busy := rfl
@[simp] theorem State.storeIn_done (i : Nat) (v : Byte) : (s.storeIn i v).done = s.done := rfl
@[simp] theorem State.storeIn_chkOk (i : Nat) (v : Byte) : (s.storeIn i v).chkOk = s.chkOk := rfl
@[simp] theorem State.storeIn_wign (i : Nat) (v : Byte) : (s.storeIn i v).wign = s.wign := rfl
@[simp] theorem State.storeIn_ie (i : Nat) (v : Byte) : (s.storeIn i v).ie = s.ie := rfl
@[simp] theorem State.storeIn_errcode (i : Nat) (v : Byte) : (s.storeIn i v).errcode = s.errcode := rfl
@[simp] theorem State.storeIn_len (i : Nat) (v : Byte) : (s.storeIn i v).len = s.len := rfl
@[simp] theorem State.storeIn_arg0 (i : Nat) (v : Byte) : (s.storeIn i v).arg0 = s.arg0 := rfl
@[simp] theorem State.storeIn_arg1 (i : Nat) (v : Byte) : (s.storeIn i v).arg1 = s.arg1 := rfl
@[simp] theorem State.storeIn_result (i : Nat) (v : Byte) : (s.storeIn i v).result = s.result := rfl
@[simp] theorem State.storeIn_outLen (i : Nat) (v : Byte) : (s.storeIn i v).outLen = s.outLen := rfl
@[simp] theorem State.storeIn_crcAcc (i : Nat) (v : Byte) : (s.storeIn i v).crcAcc = s.crcAcc := rfl
@[simp] theorem State.storeIn_mem (i : Nat) (v : Byte) : (s.storeIn i v).mem = Memory.store s.mem (inStart + i) v := rfl
@[simp] theorem State.storeIn_inBase (i : Nat) (v : Byte) : (s.storeIn i v).inBase = s.inBase := rfl
@[simp] theorem State.storeIn_outBase (i : Nat) (v : Byte) : (s.storeIn i v).outBase = s.outBase := rfl
@[simp] theorem State.storeIn_draws (i : Nat) (v : Byte) : (s.storeIn i v).draws = s.draws := rfl
@[simp] theorem State.storeIn_readData (i : Nat) (v : Byte) : (s.storeIn i v).readData = s.readData := rfl
@[simp] theorem State.storeIn_script (i : Nat) (v : Byte) : (s.storeIn i v).script = s.script := rfl

/-! ### fillOut -/

@[simp] theorem State.fillOut_cmd (bs : List Byte) : (s.fillOut bs).cmd = s.cmd := rfl
@[simp] theorem State.fillOut_busy (bs : List Byte) : (s.fillOut bs).busy = s.busy := rfl
@[simp] theorem State.fillOut_done (bs : List Byte) : (s.fillOut bs).done = s.done := rfl
@[simp] theorem State.fillOut_chkOk (bs : List Byte) : (s.fillOut bs).chkOk = s.chkOk := rfl
@[simp] theorem State.fillOut_wign (bs : List Byte) : (s.fillOut bs).wign = s.wign := rfl
@[simp] theorem State.fillOut_ie (bs : List Byte) : (s.fillOut bs).ie = s.ie := rfl
@[simp] theorem State.fillOut_errcode (bs : List Byte) : (s.fillOut bs).errcode = s.errcode := rfl
@[simp] theorem State.fillOut_len (bs : List Byte) : (s.fillOut bs).len = s.len := rfl
@[simp] theorem State.fillOut_arg0 (bs : List Byte) : (s.fillOut bs).arg0 = s.arg0 := rfl
@[simp] theorem State.fillOut_arg1 (bs : List Byte) : (s.fillOut bs).arg1 = s.arg1 := rfl
@[simp] theorem State.fillOut_result (bs : List Byte) : (s.fillOut bs).result = s.result := rfl
@[simp] theorem State.fillOut_outLen (bs : List Byte) : (s.fillOut bs).outLen = s.outLen := rfl
@[simp] theorem State.fillOut_crcAcc (bs : List Byte) : (s.fillOut bs).crcAcc = s.crcAcc := rfl
@[simp] theorem State.fillOut_mem (bs : List Byte) : (s.fillOut bs).mem = Memory.below s.mem outStart ++ Memory.cells outStart (bs.take Config.outSize) := rfl
@[simp] theorem State.fillOut_inBase (bs : List Byte) : (s.fillOut bs).inBase = s.inBase := rfl
@[simp] theorem State.fillOut_outBase (bs : List Byte) : (s.fillOut bs).outBase = s.draws := rfl
@[simp] theorem State.fillOut_draws (bs : List Byte) : (s.fillOut bs).draws = s.draws + Config.outSize := rfl
@[simp] theorem State.fillOut_readData (bs : List Byte) : (s.fillOut bs).readData = s.readData := rfl
@[simp] theorem State.fillOut_script (bs : List Byte) : (s.fillOut bs).script = s.script := rfl

/-! ### commitOk -/

@[simp] theorem State.commitOk_cmd (w : Bool) (o : CmdOk) : (s.commitOk w o).cmd = s.cmd := by cases w <;> rfl
@[simp] theorem State.commitOk_busy (w : Bool) (o : CmdOk) : (s.commitOk w o).busy = false := by cases w <;> rfl
@[simp] theorem State.commitOk_done (w : Bool) (o : CmdOk) : (s.commitOk w o).done = true := by cases w <;> rfl
@[simp] theorem State.commitOk_chkOk (w : Bool) (o : CmdOk) : (s.commitOk w o).chkOk = o.chk := by cases w <;> rfl
@[simp] theorem State.commitOk_wign (w : Bool) (o : CmdOk) : (s.commitOk w o).wign = s.wign := by cases w <;> rfl
@[simp] theorem State.commitOk_ie (w : Bool) (o : CmdOk) : (s.commitOk w o).ie = s.ie := by cases w <;> rfl
@[simp] theorem State.commitOk_errcode (w : Bool) (o : CmdOk) : (s.commitOk w o).errcode = 0x00#8 := by cases w <;> rfl
@[simp] theorem State.commitOk_len (w : Bool) (o : CmdOk) : (s.commitOk w o).len = s.len := by cases w <;> rfl
@[simp] theorem State.commitOk_arg0 (w : Bool) (o : CmdOk) : (s.commitOk w o).arg0 = s.arg0 := by cases w <;> rfl
@[simp] theorem State.commitOk_arg1 (w : Bool) (o : CmdOk) : (s.commitOk w o).arg1 = s.arg1 := by cases w <;> rfl
@[simp] theorem State.commitOk_result (w : Bool) (o : CmdOk) : (s.commitOk w o).result = o.result := by cases w <;> rfl
@[simp] theorem State.commitOk_outLen (w : Bool) (o : CmdOk) : (s.commitOk w o).outLen = BitVec.ofNat 8 o.bytes.length := by cases w <;> rfl
@[simp] theorem State.commitOk_crcAcc (w : Bool) (o : CmdOk) : (s.commitOk w o).crcAcc = s.crcAcc := by cases w <;> rfl
@[simp] theorem State.commitOk_mem (w : Bool) (o : CmdOk) : (s.commitOk w o).mem = if w then (s.fillOut o.bytes).mem else s.mem := by cases w <;> rfl
@[simp] theorem State.commitOk_inBase (w : Bool) (o : CmdOk) : (s.commitOk w o).inBase = s.inBase := by cases w <;> rfl
@[simp] theorem State.commitOk_outBase (w : Bool) (o : CmdOk) : (s.commitOk w o).outBase = if w then s.draws else s.outBase := by cases w <;> rfl
@[simp] theorem State.commitOk_draws (w : Bool) (o : CmdOk) : (s.commitOk w o).draws = if w then s.draws + Config.outSize else s.draws := by cases w <;> rfl
@[simp] theorem State.commitOk_readData (w : Bool) (o : CmdOk) : (s.commitOk w o).readData = s.readData := by cases w <;> rfl
@[simp] theorem State.commitOk_script (w : Bool) (o : CmdOk) : (s.commitOk w o).script = s.script := by cases w <;> rfl

/-! ### commitErr -/

@[simp] theorem State.commitErr_cmd (w : Bool) (e : CmdError) : (s.commitErr w e).cmd = s.cmd := by cases w <;> rfl
@[simp] theorem State.commitErr_busy (w : Bool) (e : CmdError) : (s.commitErr w e).busy = false := by cases w <;> rfl
@[simp] theorem State.commitErr_done (w : Bool) (e : CmdError) : (s.commitErr w e).done = true := by cases w <;> rfl
@[simp] theorem State.commitErr_chkOk (w : Bool) (e : CmdError) : (s.commitErr w e).chkOk = false := by cases w <;> rfl
@[simp] theorem State.commitErr_wign (w : Bool) (e : CmdError) : (s.commitErr w e).wign = s.wign := by cases w <;> rfl
@[simp] theorem State.commitErr_ie (w : Bool) (e : CmdError) : (s.commitErr w e).ie = s.ie := by cases w <;> rfl
@[simp] theorem State.commitErr_errcode (w : Bool) (e : CmdError) : (s.commitErr w e).errcode = e.code := by cases w <;> rfl
@[simp] theorem State.commitErr_len (w : Bool) (e : CmdError) : (s.commitErr w e).len = s.len := by cases w <;> rfl
@[simp] theorem State.commitErr_arg0 (w : Bool) (e : CmdError) : (s.commitErr w e).arg0 = s.arg0 := by cases w <;> rfl
@[simp] theorem State.commitErr_arg1 (w : Bool) (e : CmdError) : (s.commitErr w e).arg1 = s.arg1 := by cases w <;> rfl
@[simp] theorem State.commitErr_result (w : Bool) (e : CmdError) : (s.commitErr w e).result = 0x00#8 := by cases w <;> rfl
@[simp] theorem State.commitErr_outLen (w : Bool) (e : CmdError) : (s.commitErr w e).outLen = 0x00#8 := by cases w <;> rfl
@[simp] theorem State.commitErr_crcAcc (w : Bool) (e : CmdError) : (s.commitErr w e).crcAcc = s.crcAcc := by cases w <;> rfl
@[simp] theorem State.commitErr_mem (w : Bool) (e : CmdError) : (s.commitErr w e).mem = if w then (s.fillOut []).mem else s.mem := by cases w <;> rfl
@[simp] theorem State.commitErr_inBase (w : Bool) (e : CmdError) : (s.commitErr w e).inBase = s.inBase := by cases w <;> rfl
@[simp] theorem State.commitErr_outBase (w : Bool) (e : CmdError) : (s.commitErr w e).outBase = if w then s.draws else s.outBase := by cases w <;> rfl
@[simp] theorem State.commitErr_draws (w : Bool) (e : CmdError) : (s.commitErr w e).draws = if w then s.draws + Config.outSize else s.draws := by cases w <;> rfl
@[simp] theorem State.commitErr_readData (w : Bool) (e : CmdError) : (s.commitErr w e).readData = s.readData := by cases w <;> rfl
@[simp] theorem State.commitErr_script (w : Bool) (e : CmdError) : (s.commitErr w e).script = s.script := by cases w <;> rfl

/-! ### finish -/

@[simp] theorem State.finish_cmd (w : Bool) (o : CmdOutcome) : (s.finish w o).cmd = s.cmd := by cases o <;> simp [State.finish]
@[simp] theorem State.finish_busy (w : Bool) (o : CmdOutcome) : (s.finish w o).busy = false := by cases o <;> simp [State.finish]
@[simp] theorem State.finish_done (w : Bool) (o : CmdOutcome) : (s.finish w o).done = true := by cases o <;> simp [State.finish]
@[simp] theorem State.finish_wign (w : Bool) (o : CmdOutcome) : (s.finish w o).wign = s.wign := by cases o <;> simp [State.finish]
@[simp] theorem State.finish_ie (w : Bool) (o : CmdOutcome) : (s.finish w o).ie = s.ie := by cases o <;> simp [State.finish]
@[simp] theorem State.finish_len (w : Bool) (o : CmdOutcome) : (s.finish w o).len = s.len := by cases o <;> simp [State.finish]
@[simp] theorem State.finish_arg0 (w : Bool) (o : CmdOutcome) : (s.finish w o).arg0 = s.arg0 := by cases o <;> simp [State.finish]
@[simp] theorem State.finish_arg1 (w : Bool) (o : CmdOutcome) : (s.finish w o).arg1 = s.arg1 := by cases o <;> simp [State.finish]
@[simp] theorem State.finish_crcAcc (w : Bool) (o : CmdOutcome) : (s.finish w o).crcAcc = s.crcAcc := by cases o <;> simp [State.finish]
@[simp] theorem State.finish_inBase (w : Bool) (o : CmdOutcome) : (s.finish w o).inBase = s.inBase := by cases o <;> simp [State.finish]
@[simp] theorem State.finish_outBase (w : Bool) (o : CmdOutcome) : (s.finish w o).outBase = if w then s.draws else s.outBase := by cases o <;> simp [State.finish]
@[simp] theorem State.finish_draws (w : Bool) (o : CmdOutcome) : (s.finish w o).draws = if w then s.draws + Config.outSize else s.draws := by cases o <;> simp [State.finish]
@[simp] theorem State.finish_readData (w : Bool) (o : CmdOutcome) : (s.finish w o).readData = s.readData := by cases o <;> simp [State.finish]
@[simp] theorem State.finish_script (w : Bool) (o : CmdOutcome) : (s.finish w o).script = s.script := by cases o <;> simp [State.finish]

/-! ### writeIgnored -/

@[simp] theorem State.writeIgnored_cmd : (s.writeIgnored).cmd = s.cmd := rfl
@[simp] theorem State.writeIgnored_busy : (s.writeIgnored).busy = s.busy := rfl
@[simp] theorem State.writeIgnored_done : (s.writeIgnored).done = s.done := rfl
@[simp] theorem State.writeIgnored_chkOk : (s.writeIgnored).chkOk = s.chkOk := rfl
@[simp] theorem State.writeIgnored_wign : (s.writeIgnored).wign = true := rfl
@[simp] theorem State.writeIgnored_ie : (s.writeIgnored).ie = s.ie := rfl
@[simp] theorem State.writeIgnored_errcode : (s.writeIgnored).errcode = s.errcode := rfl
@[simp] theorem State.writeIgnored_len : (s.writeIgnored).len = s.len := rfl
@[simp] theorem State.writeIgnored_arg0 : (s.writeIgnored).arg0 = s.arg0 := rfl
@[simp] theorem State.writeIgnored_arg1 : (s.writeIgnored).arg1 = s.arg1 := rfl
@[simp] theorem State.writeIgnored_result : (s.writeIgnored).result = s.result := rfl
@[simp] theorem State.writeIgnored_outLen : (s.writeIgnored).outLen = s.outLen := rfl
@[simp] theorem State.writeIgnored_crcAcc : (s.writeIgnored).crcAcc = s.crcAcc := rfl
@[simp] theorem State.writeIgnored_mem : (s.writeIgnored).mem = s.mem := rfl
@[simp] theorem State.writeIgnored_inBase : (s.writeIgnored).inBase = s.inBase := rfl
@[simp] theorem State.writeIgnored_outBase : (s.writeIgnored).outBase = s.outBase := rfl
@[simp] theorem State.writeIgnored_draws : (s.writeIgnored).draws = s.draws := rfl
@[simp] theorem State.writeIgnored_readData : (s.writeIgnored).readData = s.readData := rfl
@[simp] theorem State.writeIgnored_script : (s.writeIgnored).script = s.script := rfl

/-! ### issue -/

@[simp] theorem State.issue_cmd (v : Byte) : (s.issue v).cmd = v := rfl
@[simp] theorem State.issue_busy (v : Byte) : (s.issue v).busy = true := rfl
@[simp] theorem State.issue_done (v : Byte) : (s.issue v).done = false := rfl
@[simp] theorem State.issue_chkOk (v : Byte) : (s.issue v).chkOk = s.chkOk := rfl
@[simp] theorem State.issue_wign (v : Byte) : (s.issue v).wign = s.wign := rfl
@[simp] theorem State.issue_ie (v : Byte) : (s.issue v).ie = s.ie := rfl
@[simp] theorem State.issue_errcode (v : Byte) : (s.issue v).errcode = s.errcode := rfl
@[simp] theorem State.issue_len (v : Byte) : (s.issue v).len = s.len := rfl
@[simp] theorem State.issue_arg0 (v : Byte) : (s.issue v).arg0 = s.arg0 := rfl
@[simp] theorem State.issue_arg1 (v : Byte) : (s.issue v).arg1 = s.arg1 := rfl
@[simp] theorem State.issue_result (v : Byte) : (s.issue v).result = s.result := rfl
@[simp] theorem State.issue_outLen (v : Byte) : (s.issue v).outLen = s.outLen := rfl
@[simp] theorem State.issue_crcAcc (v : Byte) : (s.issue v).crcAcc = s.crcAcc := rfl
@[simp] theorem State.issue_mem (v : Byte) : (s.issue v).mem = s.mem := rfl
@[simp] theorem State.issue_inBase (v : Byte) : (s.issue v).inBase = s.inBase := rfl
@[simp] theorem State.issue_outBase (v : Byte) : (s.issue v).outBase = s.outBase := rfl
@[simp] theorem State.issue_draws (v : Byte) : (s.issue v).draws = s.draws := rfl
@[simp] theorem State.issue_readData (v : Byte) : (s.issue v).readData = s.readData := rfl
@[simp] theorem State.issue_script (v : Byte) : (s.issue v).script = s.script := rfl

/-! ### answer -/

@[simp] theorem State.answer_cmd (b : Byte) : (s.answer b).cmd = s.cmd := rfl
@[simp] theorem State.answer_busy (b : Byte) : (s.answer b).busy = s.busy := rfl
@[simp] theorem State.answer_done (b : Byte) : (s.answer b).done = s.done := rfl
@[simp] theorem State.answer_chkOk (b : Byte) : (s.answer b).chkOk = s.chkOk := rfl
@[simp] theorem State.answer_wign (b : Byte) : (s.answer b).wign = s.wign := rfl
@[simp] theorem State.answer_ie (b : Byte) : (s.answer b).ie = s.ie := rfl
@[simp] theorem State.answer_errcode (b : Byte) : (s.answer b).errcode = s.errcode := rfl
@[simp] theorem State.answer_len (b : Byte) : (s.answer b).len = s.len := rfl
@[simp] theorem State.answer_arg0 (b : Byte) : (s.answer b).arg0 = s.arg0 := rfl
@[simp] theorem State.answer_arg1 (b : Byte) : (s.answer b).arg1 = s.arg1 := rfl
@[simp] theorem State.answer_result (b : Byte) : (s.answer b).result = s.result := rfl
@[simp] theorem State.answer_outLen (b : Byte) : (s.answer b).outLen = s.outLen := rfl
@[simp] theorem State.answer_crcAcc (b : Byte) : (s.answer b).crcAcc = s.crcAcc := rfl
@[simp] theorem State.answer_mem (b : Byte) : (s.answer b).mem = s.mem := rfl
@[simp] theorem State.answer_inBase (b : Byte) : (s.answer b).inBase = s.inBase := rfl
@[simp] theorem State.answer_outBase (b : Byte) : (s.answer b).outBase = s.outBase := rfl
@[simp] theorem State.answer_draws (b : Byte) : (s.answer b).draws = s.draws := rfl
@[simp] theorem State.answer_readData (b : Byte) : (s.answer b).readData = some b := rfl
@[simp] theorem State.answer_script (b : Byte) : (s.answer b).script = s.script := rfl

/-! ### taken -/

@[simp] theorem State.taken_cmd : (s.taken).cmd = s.cmd := rfl
@[simp] theorem State.taken_busy : (s.taken).busy = s.busy := rfl
@[simp] theorem State.taken_done : (s.taken).done = s.done := rfl
@[simp] theorem State.taken_chkOk : (s.taken).chkOk = s.chkOk := rfl
@[simp] theorem State.taken_wign : (s.taken).wign = s.wign := rfl
@[simp] theorem State.taken_ie : (s.taken).ie = s.ie := rfl
@[simp] theorem State.taken_errcode : (s.taken).errcode = s.errcode := rfl
@[simp] theorem State.taken_len : (s.taken).len = s.len := rfl
@[simp] theorem State.taken_arg0 : (s.taken).arg0 = s.arg0 := rfl
@[simp] theorem State.taken_arg1 : (s.taken).arg1 = s.arg1 := rfl
@[simp] theorem State.taken_result : (s.taken).result = s.result := rfl
@[simp] theorem State.taken_outLen : (s.taken).outLen = s.outLen := rfl
@[simp] theorem State.taken_crcAcc : (s.taken).crcAcc = s.crcAcc := rfl
@[simp] theorem State.taken_mem : (s.taken).mem = s.mem := rfl
@[simp] theorem State.taken_inBase : (s.taken).inBase = s.inBase := rfl
@[simp] theorem State.taken_outBase : (s.taken).outBase = s.outBase := rfl
@[simp] theorem State.taken_draws : (s.taken).draws = s.draws := rfl
@[simp] theorem State.taken_readData : (s.taken).readData = s.readData := rfl
@[simp] theorem State.taken_script : (s.taken).script = s.script.tail := rfl

/-! ### countDraw -/

@[simp] theorem State.countDraw_cmd : (s.countDraw).cmd = s.cmd := rfl
@[simp] theorem State.countDraw_busy : (s.countDraw).busy = s.busy := rfl
@[simp] theorem State.countDraw_done : (s.countDraw).done = s.done := rfl
@[simp] theorem State.countDraw_chkOk : (s.countDraw).chkOk = s.chkOk := rfl
@[simp] theorem State.countDraw_wign : (s.countDraw).wign = s.wign := rfl
@[simp] theorem State.countDraw_ie : (s.countDraw).ie = s.ie := rfl
@[simp] theorem State.countDraw_errcode : (s.countDraw).errcode = s.errcode := rfl
@[simp] theorem State.countDraw_len : (s.countDraw).len = s.len := rfl
@[simp] theorem State.countDraw_arg0 : (s.countDraw).arg0 = s.arg0 := rfl
@[simp] theorem State.countDraw_arg1 : (s.countDraw).arg1 = s.arg1 := rfl
@[simp] theorem State.countDraw_result : (s.countDraw).result = s.result := rfl
@[simp] theorem State.countDraw_outLen : (s.countDraw).outLen = s.outLen := rfl
@[simp] theorem State.countDraw_crcAcc : (s.countDraw).crcAcc = s.crcAcc := rfl
@[simp] theorem State.countDraw_mem : (s.countDraw).mem = s.mem := rfl
@[simp] theorem State.countDraw_inBase : (s.countDraw).inBase = s.inBase := rfl
@[simp] theorem State.countDraw_outBase : (s.countDraw).outBase = s.outBase := rfl
@[simp] theorem State.countDraw_draws : (s.countDraw).draws = s.draws + 1 := rfl
@[simp] theorem State.countDraw_readData : (s.countDraw).readData = s.readData := rfl
@[simp] theorem State.countDraw_script : (s.countDraw).script = s.script := rfl

/-! ### resetStep -/

@[simp] theorem State.resetStep_cmd : (s.resetStep).cmd = State.reset.cmd := rfl
@[simp] theorem State.resetStep_busy : (s.resetStep).busy = State.reset.busy := rfl
@[simp] theorem State.resetStep_done : (s.resetStep).done = State.reset.done := rfl
@[simp] theorem State.resetStep_chkOk : (s.resetStep).chkOk = State.reset.chkOk := rfl
@[simp] theorem State.resetStep_wign : (s.resetStep).wign = State.reset.wign := rfl
@[simp] theorem State.resetStep_ie : (s.resetStep).ie = State.reset.ie := rfl
@[simp] theorem State.resetStep_errcode : (s.resetStep).errcode = State.reset.errcode := rfl
@[simp] theorem State.resetStep_len : (s.resetStep).len = State.reset.len := rfl
@[simp] theorem State.resetStep_arg0 : (s.resetStep).arg0 = State.reset.arg0 := rfl
@[simp] theorem State.resetStep_arg1 : (s.resetStep).arg1 = State.reset.arg1 := rfl
@[simp] theorem State.resetStep_result : (s.resetStep).result = State.reset.result := rfl
@[simp] theorem State.resetStep_outLen : (s.resetStep).outLen = State.reset.outLen := rfl
@[simp] theorem State.resetStep_crcAcc : (s.resetStep).crcAcc = State.reset.crcAcc := rfl
@[simp] theorem State.resetStep_mem : (s.resetStep).mem = State.reset.mem := rfl
@[simp] theorem State.resetStep_inBase : (s.resetStep).inBase = s.draws := rfl
@[simp] theorem State.resetStep_outBase : (s.resetStep).outBase = s.draws + Config.inSize := rfl
@[simp] theorem State.resetStep_draws : (s.resetStep).draws = s.draws + (Config.inSize + Config.outSize) := rfl
@[simp] theorem State.resetStep_readData : (s.resetStep).readData = s.readData := rfl
@[simp] theorem State.resetStep_script : (s.resetStep).script = s.script := rfl

/-! ### ack -/

@[simp] theorem State.ack_cmd (v : Byte) : (s.ack v).cmd = s.cmd := rfl
@[simp] theorem State.ack_busy (v : Byte) : (s.ack v).busy = s.busy := rfl
@[simp] theorem State.ack_done (v : Byte) : (s.ack v).done = (s.done && !v.getLsbD 1) := rfl
@[simp] theorem State.ack_chkOk (v : Byte) : (s.ack v).chkOk = s.chkOk := rfl
@[simp] theorem State.ack_wign (v : Byte) : (s.ack v).wign = (s.wign && !v.getLsbD 3) := rfl
@[simp] theorem State.ack_ie (v : Byte) : (s.ack v).ie = s.ie := rfl
@[simp] theorem State.ack_errcode (v : Byte) : (s.ack v).errcode = s.errcode := rfl
@[simp] theorem State.ack_len (v : Byte) : (s.ack v).len = s.len := rfl
@[simp] theorem State.ack_arg0 (v : Byte) : (s.ack v).arg0 = s.arg0 := rfl
@[simp] theorem State.ack_arg1 (v : Byte) : (s.ack v).arg1 = s.arg1 := rfl
@[simp] theorem State.ack_result (v : Byte) : (s.ack v).result = s.result := rfl
@[simp] theorem State.ack_outLen (v : Byte) : (s.ack v).outLen = s.outLen := rfl
@[simp] theorem State.ack_crcAcc (v : Byte) : (s.ack v).crcAcc = s.crcAcc := rfl
@[simp] theorem State.ack_mem (v : Byte) : (s.ack v).mem = s.mem := rfl
@[simp] theorem State.ack_inBase (v : Byte) : (s.ack v).inBase = s.inBase := rfl
@[simp] theorem State.ack_outBase (v : Byte) : (s.ack v).outBase = s.outBase := rfl
@[simp] theorem State.ack_draws (v : Byte) : (s.ack v).draws = s.draws := rfl
@[simp] theorem State.ack_readData (v : Byte) : (s.ack v).readData = s.readData := rfl
@[simp] theorem State.ack_script (v : Byte) : (s.ack v).script = s.script := rfl

/-! ### setCtrl -/

@[simp] theorem State.setCtrl_cmd (v : Byte) : (s.setCtrl v).cmd = s.cmd := rfl
@[simp] theorem State.setCtrl_busy (v : Byte) : (s.setCtrl v).busy = s.busy := rfl
@[simp] theorem State.setCtrl_done (v : Byte) : (s.setCtrl v).done = s.done := rfl
@[simp] theorem State.setCtrl_chkOk (v : Byte) : (s.setCtrl v).chkOk = s.chkOk := rfl
@[simp] theorem State.setCtrl_wign (v : Byte) : (s.setCtrl v).wign = s.wign := rfl
@[simp] theorem State.setCtrl_ie (v : Byte) : (s.setCtrl v).ie = v.getLsbD 0 := rfl
@[simp] theorem State.setCtrl_errcode (v : Byte) : (s.setCtrl v).errcode = s.errcode := rfl
@[simp] theorem State.setCtrl_len (v : Byte) : (s.setCtrl v).len = s.len := rfl
@[simp] theorem State.setCtrl_arg0 (v : Byte) : (s.setCtrl v).arg0 = s.arg0 := rfl
@[simp] theorem State.setCtrl_arg1 (v : Byte) : (s.setCtrl v).arg1 = s.arg1 := rfl
@[simp] theorem State.setCtrl_result (v : Byte) : (s.setCtrl v).result = s.result := rfl
@[simp] theorem State.setCtrl_outLen (v : Byte) : (s.setCtrl v).outLen = s.outLen := rfl
@[simp] theorem State.setCtrl_crcAcc (v : Byte) : (s.setCtrl v).crcAcc = s.crcAcc := rfl
@[simp] theorem State.setCtrl_mem (v : Byte) : (s.setCtrl v).mem = s.mem := rfl
@[simp] theorem State.setCtrl_inBase (v : Byte) : (s.setCtrl v).inBase = s.inBase := rfl
@[simp] theorem State.setCtrl_outBase (v : Byte) : (s.setCtrl v).outBase = s.outBase := rfl
@[simp] theorem State.setCtrl_draws (v : Byte) : (s.setCtrl v).draws = s.draws := rfl
@[simp] theorem State.setCtrl_readData (v : Byte) : (s.setCtrl v).readData = s.readData := rfl
@[simp] theorem State.setCtrl_script (v : Byte) : (s.setCtrl v).script = s.script := rfl

/-! ### streamCrc -/

@[simp] theorem State.streamCrc_cmd (b : Byte) : (s.streamCrc b).cmd = s.cmd := by cases h : s.busy <;> simp [State.streamCrc, State.writeIgnored, h]
@[simp] theorem State.streamCrc_busy (b : Byte) : (s.streamCrc b).busy = s.busy := by cases h : s.busy <;> simp [State.streamCrc, State.writeIgnored, h]
@[simp] theorem State.streamCrc_done (b : Byte) : (s.streamCrc b).done = s.done := by cases h : s.busy <;> simp [State.streamCrc, State.writeIgnored, h]
@[simp] theorem State.streamCrc_chkOk (b : Byte) : (s.streamCrc b).chkOk = s.chkOk := by cases h : s.busy <;> simp [State.streamCrc, State.writeIgnored, h]
@[simp] theorem State.streamCrc_wign (b : Byte) : (s.streamCrc b).wign = (s.wign || s.busy) := by cases h : s.busy <;> simp [State.streamCrc, State.writeIgnored, h]
@[simp] theorem State.streamCrc_ie (b : Byte) : (s.streamCrc b).ie = s.ie := by cases h : s.busy <;> simp [State.streamCrc, State.writeIgnored, h]
@[simp] theorem State.streamCrc_errcode (b : Byte) : (s.streamCrc b).errcode = s.errcode := by cases h : s.busy <;> simp [State.streamCrc, State.writeIgnored, h]
@[simp] theorem State.streamCrc_len (b : Byte) : (s.streamCrc b).len = s.len := by cases h : s.busy <;> simp [State.streamCrc, State.writeIgnored, h]
@[simp] theorem State.streamCrc_arg0 (b : Byte) : (s.streamCrc b).arg0 = s.arg0 := by cases h : s.busy <;> simp [State.streamCrc, State.writeIgnored, h]
@[simp] theorem State.streamCrc_arg1 (b : Byte) : (s.streamCrc b).arg1 = s.arg1 := by cases h : s.busy <;> simp [State.streamCrc, State.writeIgnored, h]
@[simp] theorem State.streamCrc_result (b : Byte) : (s.streamCrc b).result = s.result := by cases h : s.busy <;> simp [State.streamCrc, State.writeIgnored, h]
@[simp] theorem State.streamCrc_outLen (b : Byte) : (s.streamCrc b).outLen = s.outLen := by cases h : s.busy <;> simp [State.streamCrc, State.writeIgnored, h]
@[simp] theorem State.streamCrc_crcAcc (b : Byte) : (s.streamCrc b).crcAcc = if s.busy then s.crcAcc else crcUpdate s.crcAcc b := by cases h : s.busy <;> simp [State.streamCrc, State.writeIgnored, h]
@[simp] theorem State.streamCrc_mem (b : Byte) : (s.streamCrc b).mem = s.mem := by cases h : s.busy <;> simp [State.streamCrc, State.writeIgnored, h]
@[simp] theorem State.streamCrc_inBase (b : Byte) : (s.streamCrc b).inBase = s.inBase := by cases h : s.busy <;> simp [State.streamCrc, State.writeIgnored, h]
@[simp] theorem State.streamCrc_outBase (b : Byte) : (s.streamCrc b).outBase = s.outBase := by cases h : s.busy <;> simp [State.streamCrc, State.writeIgnored, h]
@[simp] theorem State.streamCrc_draws (b : Byte) : (s.streamCrc b).draws = s.draws := by cases h : s.busy <;> simp [State.streamCrc, State.writeIgnored, h]
@[simp] theorem State.streamCrc_readData (b : Byte) : (s.streamCrc b).readData = s.readData := by cases h : s.busy <;> simp [State.streamCrc, State.writeIgnored, h]
@[simp] theorem State.streamCrc_script (b : Byte) : (s.streamCrc b).script = s.script := by cases h : s.busy <;> simp [State.streamCrc, State.writeIgnored, h]

end Sys2Proof.Machine
end

