-- ==== Sys2Proof/Laws/Memory.lean ====
section
/-! SUPPORT. The laws of the list of written bytes: read after write, and that every operation keeps the
canonical form; then the same said of IN and OUT. -/
namespace Sys2Proof.Machine

/-! ### load and store -/

@[simp] theorem Memory.load_nil (a : Nat) : Memory.load [] a = none := rfl

theorem Memory.load_cons (b : Nat) (w : Byte) (m : Memory) (a : Nat) :
    Memory.load ((b, w) :: m) a = if b = a then some w else Memory.load m a := rfl

@[simp] theorem Memory.load_store_same (m : Memory) (a : Nat) (v : Byte) :
    Memory.load (Memory.store m a v) a = some v := by
  induction m with
  | nil => simp [Memory.store, Memory.load_cons]
  | cons c m ih =>
    obtain ⟨b, w⟩ := c
    simp only [Memory.store]
    split_ifs with h1 h2
    · simp [Memory.load_cons]
    · simp [Memory.load_cons]
    · simp [Memory.load_cons, ih, Ne.symm h2]

theorem Memory.load_store_ne (m : Memory) {a x : Nat} (v : Byte) (h : x ≠ a) :
    Memory.load (Memory.store m a v) x = Memory.load m x := by
  induction m with
  | nil => simp [Memory.store, Memory.load_cons, Ne.symm h]
  | cons c m ih =>
    obtain ⟨b, w⟩ := c
    simp only [Memory.store]
    split_ifs with h1 h2
    · simp [Memory.load_cons, Ne.symm h]
    · subst h2; simp [Memory.load_cons, Ne.symm h]
    · simp [Memory.load_cons, ih]

theorem Memory.load_append (m n : Memory) (a : Nat) :
    Memory.load (m ++ n) a = (Memory.load m a).or (Memory.load n a) := by
  induction m with
  | nil => simp
  | cons c m ih =>
    obtain ⟨b, w⟩ := c
    simp only [List.cons_append, Memory.load_cons]
    split_ifs <;> simp [ih]

theorem Memory.load_below (m : Memory) (n a : Nat) :
    Memory.load (Memory.below m n) a = if a < n then Memory.load m a else none := by
  unfold Memory.below
  induction m with
  | nil => simp
  | cons c m ih =>
    obtain ⟨b, w⟩ := c
    rw [List.filter_cons]
    by_cases hb : b < n
    · simp only [hb, decide_true, if_true, Memory.load_cons, ih]
      by_cases h1 : b = a
      · subst h1; simp [hb]
      · simp [h1]
    · simp only [hb, decide_false, Bool.false_eq_true, if_false, Memory.load_cons, ih]
      by_cases h1 : b = a
      · subst h1; simp [hb]
      · simp [h1]

theorem Memory.load_cells (k : Nat) (bs : List Byte) (a : Nat) :
    Memory.load (Memory.cells k bs) a = if a < k then none else bs[a - k]? := by
  induction bs generalizing k with
  | nil => simp [Memory.cells]
  | cons b bs ih =>
    simp only [Memory.cells, Memory.load_cons, ih]
    by_cases h : k = a
    · subst h; simp
    · by_cases h2 : a < k
      · have : a < k + 1 := by omega
        simp [h, h2, this]
      · have h3 : ¬ a < k + 1 := by omega
        obtain ⟨d, rfl⟩ : ∃ d, a = k + 1 + d := ⟨a - (k + 1), by omega⟩
        have e1 : k + 1 + d - (k + 1) = d := by omega
        have e2 : k + 1 + d - k = d + 1 := by omega
        rw [if_neg h, if_neg h3, if_neg h2, e1, e2, List.getElem?_cons_succ]

/-! ### The canonical form -/

theorem Memory.wf_iff (m : Memory) :
    Memory.wf m = true ↔ m.Pairwise (fun c d => c.1 < d.1) ∧ ∀ c ∈ m, 0x40 ≤ c.1 ∧ c.1 < 0x100 := by
  simp only [Memory.wf, Bool.and_eq_true, decide_eq_true_eq, List.all_eq_true]
  rfl

theorem Memory.wf_nil : Memory.wf [] = true := rfl

theorem Memory.mem_store {m : Memory} {a : Nat} {v : Byte} {c : Host.Cell} (h : c ∈ Memory.store m a v) :
    c = (a, v) ∨ c ∈ m := by
  induction m with
  | nil => simpa [Memory.store] using h
  | cons d m ih =>
    obtain ⟨b, w⟩ := d
    simp only [Memory.store] at h
    split_ifs at h with h1 h2
    · simpa using h
    · rcases List.mem_cons.1 h with h | h
      · exact .inl h
      · exact .inr (List.mem_cons_of_mem _ h)
    · rcases List.mem_cons.1 h with h | h
      · exact .inr (h ▸ List.mem_cons_self)
      · exact (ih h).imp_right (List.mem_cons_of_mem _)

theorem Memory.store_sorted {m : Memory} (a : Nat) (v : Byte) (h : m.Pairwise fun c d => c.1 < d.1) :
    (Memory.store m a v).Pairwise fun c d => c.1 < d.1 := by
  induction m with
  | nil => simp [Memory.store]
  | cons d m ih =>
    obtain ⟨b, w⟩ := d
    obtain ⟨hb, hm⟩ := List.pairwise_cons.1 h
    simp only [Memory.store]
    split_ifs with h1 h2
    · refine List.pairwise_cons.2 ⟨fun c hc => ?_, h⟩
      rcases List.mem_cons.1 hc with rfl | hc
      · exact h1
      · exact h1.trans (hb c hc)
    · subst h2
      exact List.pairwise_cons.2 ⟨hb, hm⟩
    · refine List.pairwise_cons.2 ⟨fun c hc => ?_, ih hm⟩
      rcases Memory.mem_store hc with rfl | hc
      · show b < a
        omega
      · exact hb c hc

theorem Memory.store_wf {m : Memory} {a : Nat} (v : Byte) (h : Memory.wf m = true) (ha : 0x40 ≤ a) (hb : a < 0x100) :
    Memory.wf (Memory.store m a v) = true := by
  rw [Memory.wf_iff] at h ⊢
  refine ⟨Memory.store_sorted a v h.1, fun c hc => ?_⟩
  rcases Memory.mem_store hc with rfl | hc
  · exact ⟨ha, hb⟩
  · exact h.2 c hc

theorem Memory.mem_cells {k : Nat} {bs : List Byte} {c : Host.Cell} (h : c ∈ Memory.cells k bs) :
    k ≤ c.1 ∧ c.1 < k + bs.length := by
  induction bs generalizing k with
  | nil => simp [Memory.cells] at h
  | cons b bs ih =>
    rcases List.mem_cons.1 h with rfl | h
    · simp
    · have := ih h
      simp only [List.length_cons]
      omega

theorem Memory.cells_sorted (k : Nat) (bs : List Byte) : (Memory.cells k bs).Pairwise fun c d => c.1 < d.1 := by
  induction bs generalizing k with
  | nil => exact .nil
  | cons b bs ih => exact List.pairwise_cons.2 ⟨fun c hc => (Memory.mem_cells hc).1, ih (k + 1)⟩

/-! ### IN and OUT -/

theorem State.fillOut_wf {s : State} (bs : List Byte) (h : Memory.wf s.mem = true) : Memory.wf (s.fillOut bs).mem = true := by
  rw [Memory.wf_iff] at h ⊢
  have hlen : (bs.take Config.outSize).length ≤ 128 := by
    rw [List.length_take]; exact Nat.min_le_left _ _
  rw [State.fillOut_mem]
  refine ⟨List.pairwise_append.2 ⟨h.1.filter _, Memory.cells_sorted _ _, fun c hc d hd => ?_⟩, fun c hc => ?_⟩
  · have h1 : c.1 < outStart := by simpa using (List.mem_filter.1 hc).2
    have h2 := (Memory.mem_cells hd).1
    omega
  · rcases List.mem_append.1 hc with hc | hc
    · exact h.2 c (List.mem_filter.1 hc).1
    · have := Memory.mem_cells hc
      simp only [outStart] at this
      omega

theorem State.storeIn_wf {s : State} {i : Nat} (v : Byte) (h : Memory.wf s.mem = true) (hi : i < 64) :
    Memory.wf (s.storeIn i v).mem = true :=
  Memory.store_wf v h (by simp [inStart]) (by simp only [inStart]; omega)

theorem State.storeIn_byteAt_same (s : State) (i : Nat) (v : Byte) : (s.storeIn i v).byteAt (inStart + i) = v := by
  simp [State.byteAt]

theorem State.storeIn_byteAt_ne (s : State) {i a : Nat} (v : Byte) (h : a ≠ inStart + i) :
    (s.storeIn i v).byteAt a = s.byteAt a := by
  simp [State.byteAt, State.freshAt, Memory.load_store_ne _ v h]

/-- Below OUT a commit leaves every byte as it was. -/
theorem State.fillOut_byteAt_in (s : State) (bs : List Byte) {a : Nat} (h : a < outStart) :
    (s.fillOut bs).byteAt a = s.byteAt a := by
  simp [State.byteAt, State.freshAt, Memory.load_append, Memory.load_below, Memory.load_cells, h]

/-- What a commit leaves in OUT: the bytes given, then draws never taken before. -/
theorem State.fillOut_outByte (s : State) (bs : List Byte) (i : Nat) :
    (s.fillOut bs).outByte i = ((bs.take Config.outSize)[i]?).getD (Config.draw (s.draws + i)) := by
  have h1 : ¬ outStart + i < outStart := by omega
  simp only [State.outByte, State.byteAt, State.freshAt, State.fillOut_mem, State.fillOut_outBase, Memory.load_append,
    Memory.load_below, Memory.load_cells, h1, if_false, Option.none_or, Nat.add_sub_cancel_left]
  cases (bs.take Config.outSize)[i]? <;> rfl

theorem State.fillOut_outBytes (s : State) (bs : List Byte) (h : bs.length ≤ 128) :
    (s.fillOut bs).outBytes bs.length = bs := by
  apply List.ext_getElem
  · simp [State.outBytes]
  · intro i h1 h2
    have h3 : bs.take Config.outSize = bs := List.take_of_length_le h
    simp [State.outBytes, State.fillOut_outByte, h3, List.getElem?_eq_getElem h2]

/-- IN depends only on what is listed below OUT and on the draws IN was given. -/
theorem State.fillOut_inByte (s : State) (bs : List Byte) {i : Nat} (h : i < 64) : (s.fillOut bs).inByte i = s.inByte i :=
  s.fillOut_byteAt_in bs (by simp only [inStart, outStart]; omega)

theorem State.inBytes_length (s : State) (n : Nat) : (s.inBytes n).length = n := by simp [State.inBytes]

theorem State.outBytes_length (s : State) (n : Nat) : (s.outBytes n).length = n := by simp [State.outBytes]

end Sys2Proof.Machine
end

