-- ==== Sys2Proof/Laws/Exec.lean ====
section
/-! SUPPORT. Said once of each shared operation: what a completion, a host access and a step can do. Later
proofs cite these and do not unfold the operations. -/
namespace Sys2Proof.Machine

/-! ### Commands -/

/-- The outcome that a command commits (spec/10_state.md R45); CRC_DATA has none, and stands here with an
empty success. -/
def State.outcome (s : State) : Instr → CmdOutcome
  | .crc8 => s.overSpan fun p => checksumOk (crc8 p) false
  | .crc8Chk => s.overSpan fun p => checksumOk (crc8 p) (crcMatches (crc8 p) s.expectedCrc)
  | .pop4 => s.overSpan fun p => checksumOk ((pop4s p).setWidth 8) false
  | .pop4Chk => s.overSpan fun p => checksumOk ((pop4s p).setWidth 8) (pop4Matches (pop4s p) s.expectedPop4)
  | .pop4b => checksumOk ((pop4 s.singleByte).setWidth 8) false
  | .pop4bChk => checksumOk ((pop4 s.singleByte).setWidth 8) (pop4Matches (pop4 s.singleByte) s.expectedPop4)
  | .stuffEnc => s.overSpan stuffEncOutcome
  | .stuffDec => s.overSpan (stuffDecOutcome s.stuffIndex s.arg0)
  | .frameAsm => s.overSpan frameAsmOutcome
  | .frameDis => s.overSpan frameDisOutcome
  | .crcData _ => checksumOk 0x00#8 false

/-- Every command is one commit of its outcome. -/
theorem exec_command {i : Instr} (s : State) (h : i.isCommand = true) :
    exec i s = .next (s.finish i.byteOutput (s.outcome i)) := by
  cases i <;> first | rfl | cases h

theorem exec_crcData (b : Byte) (s : State) : exec (.crcData b) s = .next (s.streamCrc b) := rfl

theorem State.span_ok {s : State} (h : s.len.toNat ≤ 64) : s.span = .ok (s.inBytes s.len.toNat) :=
  if_neg (Nat.not_lt.2 h)

theorem State.span_badLength {s : State} (h : 64 < s.len.toNat) : s.span = .error .badLength := if_pos h

theorem State.overSpan_ok {s : State} (f : List Byte → CmdOutcome) (h : s.len.toNat ≤ 64) :
    s.overSpan f = f (s.inBytes s.len.toNat) := by simp [State.overSpan, State.span_ok h]

theorem State.overSpan_badLength {s : State} (f : List Byte → CmdOutcome) (h : 64 < s.len.toNat) :
    s.overSpan f = .error .badLength := by simp [State.overSpan, State.span_badLength h]

theorem State.finish_ok (s : State) (w : Bool) (r : CmdOk) : s.finish w (.ok r) = s.commitOk w r := rfl

theorem State.finish_error (s : State) (w : Bool) (e : CmdError) : s.finish w (.error e) = s.commitErr w e := rfl

/-- A completion leaves every byte of IN. -/
theorem State.finish_byteAt_in (s : State) (w : Bool) (o : CmdOutcome) {a : Nat} (h : a < outStart) :
    (s.finish w o).byteAt a = s.byteAt a := by
  cases w <;> cases o <;>
    first
    | rfl
    | exact s.fillOut_byteAt_in _ h

/-- A completion that is no byte output leaves every byte of IN and OUT. -/
theorem State.finish_false_byteAt (s : State) (o : CmdOutcome) (a : Nat) : (s.finish false o).byteAt a = s.byteAt a := by
  cases o <;> rfl

theorem State.finish_wf {s : State} (w : Bool) (o : CmdOutcome) (h : Memory.wf s.mem = true) :
    Memory.wf (s.finish w o).mem = true := by
  cases w <;> cases o <;>
    first
    | exact h
    | exact State.fillOut_wf _ h

/-- What a successful byte-output commit leaves in OUT. -/
theorem State.commitOk_outBytes (s : State) (r : CmdOk) (h : r.bytes.length ≤ 128) :
    (s.commitOk true r).outBytes r.bytes.length = r.bytes := s.fillOut_outBytes r.bytes h

/-! ### The address map -/

/-- Where an offset lies: in IN, in OUT, or among the registers and reserved offsets. -/
theorem locOf_regions (a : Byte) :
    (locOf a = .inBuf (a.toNat - 0x40) ∧ 0x40 ≤ a.toNat ∧ a.toNat < 0x80) ∨
      (locOf a = .outBuf (a.toNat - 0x80) ∧ 0x80 ≤ a.toNat) ∨
      (a.toNat < 0x40 ∧ locOf a ∈ [Loc.cmd, .status, .ctrl, .errcode, .len, .arg0, .arg1, .result, .outLen, .crcAcc,
        .crcData, .reserved]) := by
  revert a; decide

theorem locOf_inBuf {a : Byte} {i : Nat} (h : locOf a = .inBuf i) : i < 64 ∧ a.toNat = 0x40 + i := by
  have := locOf_regions a
  rw [h] at this
  simp at this
  omega

theorem locOf_outBuf {a : Byte} {i : Nat} (h : locOf a = .outBuf i) : i < 128 ∧ a.toNat = 0x80 + i := by
  have := locOf_regions a
  rw [h] at this
  simp at this
  omega

theorem locOf_of_in {a : Byte} (h1 : 0x40 ≤ a.toNat) (h2 : a.toNat < 0x80) : locOf a = .inBuf (a.toNat - 0x40) := by
  revert a; decide

theorem locOf_of_out {a : Byte} (h : 0x80 ≤ a.toNat) : locOf a = .outBuf (a.toNat - 0x80) := by
  revert a; decide

theorem locOf_of_reserved {a : Byte} (h1 : 0x0B ≤ a.toNat) (h2 : a.toNat < 0x40) : locOf a = .reserved := by
  revert a; decide

/-! ### Host accesses -/

/-- A read changes nothing but the model's own record of it (spec/20_memory.md R66). -/
theorem State.hostRead_cases (s : State) (a : Byte) :
    (∃ b, s.hostRead a = s.answer b) ∨ (s.busy = true ∧ ∃ b, s.hostRead a = s.countDraw.answer b) := by
  unfold State.hostRead
  split_ifs with hb
  · split
    · exact .inr ⟨hb, _, rfl⟩
    · exact .inl ⟨_, rfl⟩
  · exact .inl ⟨_, rfl⟩

theorem State.hostRead_idle {s : State} (a : Byte) (h : s.busy = false) : s.hostRead a = s.answer (s.stored (locOf a)) := by
  simp [State.hostRead, h]

theorem State.hostWrite_idle {s : State} (a v : Byte) (h : s.busy = false) : s.hostWrite a v = s.writeIdle v (locOf a) := by
  simp [State.hostWrite, h]

theorem State.hostWrite_busy {s : State} (a v : Byte) (h : s.busy = true) : s.hostWrite a v = s.writeBusy v (locOf a) := by
  simp [State.hostWrite, h]

theorem State.hostWrite_crcData (s : State) (v : Byte) : s.hostWrite 0x0A#8 v = s.streamCrc v := by
  unfold State.hostWrite
  split_ifs <;> rfl

/-- What a write while BUSY = 1 can do (spec/20_memory.md R68). -/
theorem State.writeBusy_cases {s : State} (v : Byte) (l : Loc) (h : s.busy = true) :
    s.writeBusy v l = s.writeIgnored ∨ s.writeBusy v l = s.ack v ∨ s.writeBusy v l = s.setCtrl v ∨ s.writeBusy v l = s := by
  cases l <;> simp [State.writeBusy, State.streamCrc, h]

theorem State.hostWrite_wf {s : State} (a v : Byte) (h : Memory.wf s.mem = true) : Memory.wf (s.hostWrite a v).mem = true := by
  unfold State.hostWrite
  split_ifs with hb
  · rcases s.writeBusy_cases v (locOf a) hb with e | e | e | e <;> rw [e] <;> exact h
  · cases hl : locOf a <;>
      first
      | exact State.storeIn_wf v h (locOf_inBuf hl).1
      | simpa [State.writeIdle] using h

/-! ### Steps -/

/-- Everything that one step can be: `s` is the state with the script's first event taken off. -/
inductive Took : State → Event → State → Prop where
  /-- The engine's turn while nothing is pending (spec/60_exceptions.md R225). -/
  | idle (s : State) (h : s.busy = false) : Took s .complete s
  /-- The completion of a legal command (spec/10_state.md R45). -/
  | command (s : State) (i : Instr) (h : s.busy = true) (hi : decodeCmd s.cmd = .ok i) :
      Took s .complete (s.finish i.byteOutput (s.outcome i))
  /-- The completion of an illegal opcode (spec/30_encoding.md R93). -/
  | illegal (s : State) (h : s.busy = true) (he : decodeCmd s.cmd = .error (.illegalCommand s.cmd)) :
      Took s .complete (s.commitErr false .illegalCommand)
  /-- A host read of one byte. -/
  | read (s : State) (a : Byte) : Took s (.memRead a 1) (s.hostRead a)
  /-- A host write of one byte. -/
  | write (s : State) (a v : Byte) : Took s (.memWrite a 1 v) (s.hostWrite a v)
  /-- A reset. -/
  | reset (s : State) : Took s .reset s.resetStep

theorem decodeCmd_isCommand {op : Byte} {i : Instr} (h : decodeCmd op = .ok i) : i.isCommand = true := by
  unfold decodeCmd at h
  split_ifs at h <;> cases h <;> rfl

theorem decodeCmd_error {op : Byte} {e : DecodeError} (h : decodeCmd op = .error e) : e = .illegalCommand op := by
  unfold decodeCmd at h
  split_ifs at h
  cases h
  rfl

theorem widthOk_iff (w : Nat) : widthOk w = true ↔ w = 1 := by simp [widthOk]

theorem engineTurn_took {s t : State} (h : s.engineTurn.outcome = .next t) : Took s .complete t := by
  unfold State.engineTurn at h
  by_cases hb : s.busy = true
  · rw [if_pos hb] at h
    cases hd : decodeCmd s.cmd with
    | ok i =>
      rw [hd] at h
      cases (exec_command s (decodeCmd_isCommand hd)).symm.trans h
      exact .command s i hb hd
    | error e =>
      rw [hd] at h
      cases h
      exact .illegal s hb (by rw [hd, decodeCmd_error hd])
  · rw [if_neg hb] at h
    cases h
    exact .idle s (by simpa using hb)

theorem writeTurn_outcome (s : State) (a v : Byte) : (s.writeTurn a v).outcome = .next (s.hostWrite a v) := by
  unfold State.writeTurn decodeRegWrite
  by_cases ha : a = crcDataOffset
  · rw [if_pos ha, ha]
    exact congrArg Host.Outcome.next (s.hostWrite_crcData v).symm
  · rw [if_neg ha]
    rfl

/-- The inversion of `step`: a next state comes from the event that was due, in one of `Took`'s ways. -/
theorem step_took {s t : State} (h : step s = .next t) : Took s.taken s.nextEvent t := by
  unfold step State.turn at h
  cases he : s.nextEvent with
  | memRead a w =>
    rw [he] at h
    by_cases hw : widthOk w = true
    · simp only [if_pos hw] at h
      cases h
      rw [(widthOk_iff w).1 hw]
      exact .read _ a
    · simp only [if_neg hw] at h
      cases h
  | memWrite a w v =>
    rw [he] at h
    by_cases hw : widthOk w = true
    · simp only [if_pos hw] at h
      cases (writeTurn_outcome _ a v).symm.trans h
      rw [(widthOk_iff w).1 hw]
      exact .write _ a v
    · simp only [if_neg hw] at h
      cases h
  | complete =>
    rw [he] at h
    exact engineTurn_took h
  | reset =>
    rw [he] at h
    cases h
    exact .reset _
  | clash =>
    rw [he] at h
    cases h

/-! ### One equation per event -/

theorem State.taken_cons {s : State} {e : Event} {rest : List Event} (h : s.script = e :: rest) :
    s.taken = { s with script := rest } := by simp [State.taken, h]

theorem State.nextEvent_cons {s : State} {e : Event} {rest : List Event} (h : s.script = e :: rest) :
    s.nextEvent = e := by simp [State.nextEvent, h]

theorem State.taken_nil {s : State} (h : s.script = []) : s.taken = s := by cases s; cases h; rfl

theorem step_complete {s : State} (h : s.nextEvent = .complete) : step s = s.taken.engineTurn.outcome := by
  simp [step, State.turn, h]

theorem step_memWrite {s : State} {a v : Byte} (h : s.nextEvent = .memWrite a 1 v) :
    step s = .next (s.taken.hostWrite a v) := by
  rw [← writeTurn_outcome]
  simp [step, State.turn, h, widthOk]

theorem step_memRead {s : State} {a : Byte} (h : s.nextEvent = .memRead a 1) : step s = .next (s.taken.hostRead a) := by
  simp [step, State.turn, h, widthOk, Turn.outcome]

theorem step_reset {s : State} (h : s.nextEvent = .reset) : step s = .next s.taken.resetStep := by
  simp [step, State.turn, h, Turn.outcome]

theorem engineTurn_command {s : State} {i : Instr} (hb : s.busy = true) (h : decodeCmd s.cmd = .ok i) :
    s.engineTurn.outcome = exec i s := by simp [State.engineTurn, hb, h, Turn.outcome]

theorem engineTurn_illegal {s : State} {e : DecodeError} (hb : s.busy = true) (h : decodeCmd s.cmd = .error e) :
    s.engineTurn.outcome = .next (s.commitErr false .illegalCommand) := by
  simp [State.engineTurn, hb, h, Turn.outcome]

theorem engineTurn_idle {s : State} (hb : s.busy = false) : s.engineTurn.outcome = .next s := by
  simp [State.engineTurn, hb, Turn.outcome]

/-! ### Runs -/

@[simp] theorem run_zero (s : State) : run 0 s = .next s := rfl

theorem run_next {s t : State} (k : Nat) (h : step s = .next t) : run (k + 1) s = run k t := by simp [run, h]

theorem core_run_next (M : Host.Core) (k : Nat) {s t : M.State} (h : M.step s = .next t) :
    M.run (k + 1) s = M.run k t := by
  simp only [Host.Core.run, h]

theorem core_run_fault (M : Host.Core) (k : Nat) {s : M.State} {f : M.Fault} (h : M.step s = .fault f) :
    M.run (k + 1) s = .fault f := by
  simp only [Host.Core.run, h]

theorem core_run_refused (M : Host.Core) (k : Nat) {s : M.State} {r : M.Refusal} (h : M.step s = .refused r) :
    M.run (k + 1) s = .refused r := by
  simp only [Host.Core.run, h]

theorem run_eq_core_run (k : Nat) (s : State) : run k s = Host.Core.run core k s := by
  induction k generalizing s with
  | zero => rfl
  | succ k ih =>
    cases h : step s with
    | next t => exact (run_next k h).trans ((ih t).trans (core_run_next core k h).symm)
    | fault f => exact (by simp [run, h] : run (k + 1) s = .fault f).trans (core_run_fault core k h).symm
    | refused r => exact (by simp [run, h] : run (k + 1) s = .refused r).trans (core_run_refused core k h).symm

end Sys2Proof.Machine
end

