-- ==== Sys2Proof/Laws/Codec.lean ====
section
/-! SUPPORT. The small laws of the codec's functions: what one turn of each loop does, what the decoders accept,
and the fields of a metadata byte. -/
namespace Sys2Proof.Machine

/-! ### CRC-8 -/

theorem crcShift_xor (a b : Byte) : crcShift (a ^^^ b) = crcShift a ^^^ crcShift b := by
  have hxx (x y z : Byte) : x ^^^ z ^^^ (y ^^^ z) = x ^^^ y := by
    rw [BitVec.xor_comm y z, ← BitVec.xor_assoc, BitVec.xor_assoc x z z, BitVec.xor_self, BitVec.xor_zero]
  cases ha : a.getLsbD 7 <;> cases hb : b.getLsbD 7 <;>
    simp [crcShift, ha, hb, BitVec.shiftLeft_xor_distrib, -BitVec.getLsbD_eq_getElem, BitVec.getLsbD_xor, hxx] <;> ac_rfl

theorem crcShift_zero : crcShift 0#8 = 0#8 := rfl

/-- A CRC state fed its own value is cleared. -/
theorem crcUpdate_self (c : Byte) : crcUpdate c c = 0#8 := by
  simp [crcUpdate, crcShift_zero]

theorem crcUpdate_xor (c d a b : Byte) : crcUpdate (c ^^^ d) (a ^^^ b) = crcUpdate c a ^^^ crcUpdate d b := by
  have h : (c ^^^ d) ^^^ (a ^^^ b) = (c ^^^ a) ^^^ (d ^^^ b) := by ac_rfl
  simp only [crcUpdate, h, crcShift_xor]

@[simp] theorem crc8_nil : crc8 [] = 0x00#8 := rfl

theorem crc8_append (s t : List Byte) : crc8 (s ++ t) = t.foldl crcUpdate (crc8 s) := List.foldl_append

/-! ### Metadata bytes -/

theorem metaByte_toNat {n : Nat} (c : BitVec 2) (h : n < 64) : (metaByte n c).toNat = 4 * n + c.toNat := by
  have hc := c.isLt
  have key : ∀ (n : Fin 64) (c : BitVec 2), (metaByte n.val c).toNat = 4 * n.val + c.toNat := by decide
  exact key ⟨n, h⟩ c

theorem metaValue_toNat (b : Byte) : metaValue b = b.toNat / 4 := by
  simp [metaValue, BitVec.toNat_ushiftRight, Nat.shiftRight_eq_div_pow]

theorem metaCheck_toNat (b : Byte) : (metaCheck b).toNat = b.toNat % 4 := by
  simp [metaCheck]

theorem metaValue_metaByte {n : Nat} (c : BitVec 2) (h : n < 64) : metaValue (metaByte n c) = n := by
  rw [metaValue_toNat, metaByte_toNat c h]
  have := c.isLt
  omega

theorem metaCheck_metaByte {n : Nat} (c : BitVec 2) (h : n < 64) : metaCheck (metaByte n c) = c := by
  apply BitVec.eq_of_toNat_eq
  rw [metaCheck_toNat, metaByte_toNat c h]
  have := c.isLt
  omega

/-- A metadata byte is what its two fields make. -/
theorem metaByte_fields (b : Byte) : metaByte (metaValue b) (metaCheck b) = b := by
  revert b; decide

/-! ### The encoder's turn -/

theorem stuffStep_startByte (t : Stuffer) :
    stuffStep t Config.startByte = { closeRun t with idx := t.idx + 1 } := by simp [stuffStep, closeRun]

theorem stuffStep_data {t : Stuffer} {b : Byte} (h : b ≠ Config.startByte) (hc : t.code + 1 ≠ Config.flushCode) :
    stuffStep t b = { t with q := t.q ++ [b], code := t.code + 1 } := by simp [stuffStep, h, hc]

theorem stuffStep_flush {t : Stuffer} {b : Byte} (h : b ≠ Config.startByte) (hc : t.code + 1 = Config.flushCode) :
    stuffStep t b = closeRun { t with q := t.q ++ [b], code := t.code + 1 } := by simp [stuffStep, h, hc]

/-! ### The decoder's turn -/

@[simp] theorem decodeBlocks_nil (k : Nat) (p : List Byte) (n : Nat) : decodeBlocks k [] p n = .ok (p, n) := by
  cases k <;> rfl

theorem decodeBlocks_zeroCode (k : Nat) (rest p : List Byte) (n : Nat) :
    decodeBlocks (k + 1) (0x00#8 :: rest) p n = .error .zeroCode := rfl

theorem decodeBlocks_truncated (k : Nat) {c : Byte} {rest : List Byte} (p : List Byte) (n : Nat)
    (h : rest.length + 1 < c.toNat) : decodeBlocks (k + 1) (c :: rest) p n = .error .truncated := by
  have hc : c ≠ 0x00#8 := by rintro rfl; simp at h
  simp [decodeBlocks, hc, h]

/-- A whole block: its data bytes, then a start byte unless the block is the last or its code is 0xFF. -/
theorem decodeBlocks_block (k : Nat) {c : Byte} {data rest : List Byte} (p : List Byte) (n : Nat)
    (h : c.toNat = data.length + 1) :
    decodeBlocks (k + 1) (c :: data ++ rest) p n =
      if c.toNat ≠ 0xFF ∧ rest ≠ [] then decodeBlocks k rest (p ++ data ++ [0xAA#8]) (n + 1)
      else decodeBlocks k rest (p ++ data) n := by
  have hc : c ≠ 0x00#8 := by rintro rfl; simp at h
  have h1 : ¬ (c :: (data ++ rest)).length < c.toNat := by simp; omega
  have h2 : c.toNat - 1 = data.length := by omega
  simp only [List.cons_append, decodeBlocks, if_neg hc, if_neg h1, h2, List.take_left, List.drop_left,
    Config.flushCode, Config.startByte]

/-- The decoder never gives more bytes than it reads. -/
theorem decodeBlocks_length (k : Nat) (q p p' : List Byte) (n n' : Nat) (h : decodeBlocks k q p n = .ok (p', n')) :
    p'.length ≤ p.length + q.length := by
  induction k generalizing q p n with
  | zero =>
    cases q with
    | nil => simp at h; simp [h.1]
    | cons c rest => cases h
  | succ k ih =>
    cases q with
    | nil => simp at h; simp [h.1]
    | cons c rest =>
      simp only [decodeBlocks] at h
      split_ifs at h with h1 h2 h3
      · have := ih _ _ _ h
        have h0 : c.toNat ≠ 0 := fun e => h1 (BitVec.eq_of_toNat_eq e)
        simp only [List.length_append, List.length_take, List.length_drop, List.length_cons, List.length_nil] at this h2 ⊢
        have h4 : rest.drop (c.toNat - 1) ≠ [] := h3.2
        have h5 := List.length_pos_iff.2 h4
        rw [List.length_drop] at h5
        omega
      · have := ih _ _ _ h
        simp only [List.length_append, List.length_take, List.length_drop, List.length_cons] at this ⊢
        omega

/-- What `stuffDecode` accepts (spec/41_stuffing.md R155). -/
theorem stuffDecode_ok {q p : List Byte} {idx : Nat} (h : stuffDecode q idx = .ok p) :
    q.count Config.startByte = 0 ∧ q ≠ [] ∧ decodeBlocks q.length q [] 0 = .ok (p, idx) := by
  unfold stuffDecode at h
  split_ifs at h with h1 h2
  cases hd : decodeBlocks q.length q [] 0 with
  | error e => rw [hd] at h; cases h
  | ok r =>
    rw [hd] at h
    simp only at h
    split_ifs at h with h3
    cases h
    exact ⟨by omega, h2, by rw [← not_not.1 h3]⟩

theorem stuffDecode_length {q p : List Byte} {idx : Nat} (h : stuffDecode q idx = .ok p) : p.length ≤ q.length := by
  simpa using decodeBlocks_length _ _ _ _ _ _ (stuffDecode_ok h).2.2

/-! ### The frame functions -/

/-- What `frameAssemble` gives (spec/42_frame.md R180). -/
theorem frameAssemble_ok {p f : List Byte} (h : frameAssemble p = .ok f) :
    p.length ≤ 28 ∧ (stuffEncode p).2 ≤ 63 ∧
      f = [0xAA#8, metaByte p.length (pop4Len p.length), metaByte (stuffEncode p).2 (pop4s (stuffEncode p).1)] ++
        (stuffEncode p).1 ++ [crc8 p] := by
  unfold frameAssemble at h
  by_cases h1 : Config.maxPayload < p.length
  · rw [if_pos h1] at h; cases h
  rw [if_neg h1] at h
  by_cases h2 : Config.maxStuffIndex < (stuffEncode p).2
  · simp only [if_pos h2] at h; cases h
  simp only [if_neg h2] at h
  cases h
  exact ⟨Nat.not_lt.1 h1, Nat.not_lt.1 h2, rfl⟩

/-- What `frameDisassemble` accepts (R181). -/
theorem frameDisassemble_ok {f p : List Byte} (h : frameDisassemble f = .ok p) :
    4 ≤ f.length ∧ byteOf f 0 = 0xAA#8 ∧ pop4Len (metaValue (byteOf f 1)) = metaCheck (byteOf f 1) ∧
      metaValue (byteOf f 1) ≤ 28 ∧ pop4s (stuffedPart f) = metaCheck (byteOf f 2) ∧
      stuffDecode (stuffedPart f) (metaValue (byteOf f 2)) = .ok p ∧ p.length = metaValue (byteOf f 1) ∧
      crc8 p = byteOf f (f.length - 1) := by
  unfold frameDisassemble at h
  by_cases h1 : f.length < 4
  · rw [if_pos h1] at h; cases h
  by_cases h2 : byteOf f 0 ≠ Config.startByte
  · rw [if_neg h1, if_pos h2] at h; cases h
  by_cases h3 : pop4Len (metaValue (byteOf f 1)) ≠ metaCheck (byteOf f 1)
  · rw [if_neg h1, if_neg h2, if_pos h3] at h; cases h
  by_cases h4 : Config.maxPayload < metaValue (byteOf f 1)
  · rw [if_neg h1, if_neg h2, if_neg h3, if_pos h4] at h; cases h
  by_cases h5 : pop4s (stuffedPart f) ≠ metaCheck (byteOf f 2)
  · rw [if_neg h1, if_neg h2, if_neg h3, if_neg h4, if_pos h5] at h; cases h
  rw [if_neg h1, if_neg h2, if_neg h3, if_neg h4, if_neg h5] at h
  cases hd : stuffDecode (stuffedPart f) (metaValue (byteOf f 2)) with
  | error e => rw [hd] at h; cases h
  | ok r =>
    rw [hd] at h
    by_cases h6 : r.length ≠ metaValue (byteOf f 1)
    · simp only [if_pos h6] at h; cases h
    by_cases h7 : crc8 r ≠ byteOf f (f.length - 1)
    · simp only [if_neg h6, if_pos h7] at h; cases h
    simp only [if_neg h6, if_neg h7] at h
    cases h
    exact ⟨Nat.not_lt.1 h1, not_not.1 h2, not_not.1 h3, Nat.not_lt.1 h4, not_not.1 h5, rfl, not_not.1 h6, not_not.1 h7⟩

/-! ### Named registers of the address map -/

theorem locOf_eq_cmd (a : Byte) : locOf a = .cmd ↔ a = 0x00#8 := by revert a; decide
theorem locOf_eq_status (a : Byte) : locOf a = .status ↔ a = 0x01#8 := by revert a; decide
theorem locOf_eq_ctrl (a : Byte) : locOf a = .ctrl ↔ a = 0x02#8 := by revert a; decide
theorem locOf_eq_errcode (a : Byte) : locOf a = .errcode ↔ a = 0x03#8 := by revert a; decide
theorem locOf_eq_len (a : Byte) : locOf a = .len ↔ a = 0x04#8 := by revert a; decide
theorem locOf_eq_arg0 (a : Byte) : locOf a = .arg0 ↔ a = 0x05#8 := by revert a; decide
theorem locOf_eq_arg1 (a : Byte) : locOf a = .arg1 ↔ a = 0x06#8 := by revert a; decide
theorem locOf_eq_result (a : Byte) : locOf a = .result ↔ a = 0x07#8 := by revert a; decide
theorem locOf_eq_outLen (a : Byte) : locOf a = .outLen ↔ a = 0x08#8 := by revert a; decide
theorem locOf_eq_crcAcc (a : Byte) : locOf a = .crcAcc ↔ a = 0x09#8 := by revert a; decide
theorem locOf_eq_crcData (a : Byte) : locOf a = .crcData ↔ a = 0x0A#8 := by revert a; decide

end Sys2Proof.Machine
end

