-- ==== Sys2Proof/Laws/PerInstr.lean ====
section
/-! SUPPORT. Statements for all instructions, one lemma per constructor. -/
namespace Sys2Proof.Laws.OneBusWrite

/-- An instruction is well-formed, and its bytes are one host write, to CMD for a command and to CRC_DATA for
the register write, which decodes to it (spec/30_encoding.md R90, R92; spec/40_checksum.md R136). -/
def Statement (i : Instr) : Prop :=
  i.wf = true ∧ (∃ v, encode i = [if i.isCommand then 0x00#8 else 0x0A#8, v]) ∧
    decodeWrite (offsetOf i) (valueOf i) = .ok i

theorem crc8 : Statement .crc8 := ⟨rfl, ⟨_, rfl⟩, rfl⟩
theorem crc8Chk : Statement .crc8Chk := ⟨rfl, ⟨_, rfl⟩, rfl⟩
theorem pop4 : Statement .pop4 := ⟨rfl, ⟨_, rfl⟩, rfl⟩
theorem pop4Chk : Statement .pop4Chk := ⟨rfl, ⟨_, rfl⟩, rfl⟩
theorem pop4b : Statement .pop4b := ⟨rfl, ⟨_, rfl⟩, rfl⟩
theorem pop4bChk : Statement .pop4bChk := ⟨rfl, ⟨_, rfl⟩, rfl⟩
theorem stuffEnc : Statement .stuffEnc := ⟨rfl, ⟨_, rfl⟩, rfl⟩
theorem stuffDec : Statement .stuffDec := ⟨rfl, ⟨_, rfl⟩, rfl⟩
theorem frameAsm : Statement .frameAsm := ⟨rfl, ⟨_, rfl⟩, rfl⟩
theorem frameDis : Statement .frameDis := ⟨rfl, ⟨_, rfl⟩, rfl⟩
theorem crcData (data : Byte) : Statement (.crcData data) := ⟨rfl, ⟨_, rfl⟩, rfl⟩

end Sys2Proof.Laws.OneBusWrite
end

