-- ==== Sys2Proof/Tests/Slice0.lean ====
section
/-! SUPPORT. The model's own tests. Expected values are taken from spec/95_test_vectors.md (the vector's id is in
the comment) or from the rule that is named; none is the model's own answer. -/
namespace Sys2Proof.Tests

open Sys2Proof Sys2Proof.Machine

/-- The state of a next outcome (State.reset for any other, which no test below expects). -/
def ofNext : Host.Outcome State Fault Refusal → State
  | .next s => s
  | .fault _ => State.reset
  | .refused _ => State.reset

/-- A block with these bytes in IN from index 0, LEN their number. -/
def loaded (bytes : List Byte) : State :=
  { State.reset with mem := Memory.cells inStart bytes, len := BitVec.ofNat 8 bytes.length }

/-- The ASCII digits "123456789" of vectors CK-3 and CK-14. -/
def digits : List Byte := [0x31#8, 0x32#8, 0x33#8, 0x34#8, 0x35#8, 0x36#8, 0x37#8, 0x38#8, 0x39#8]

/-- The payload of scenario 3 (S-5), its stuffed form (ST-3) and its frame (FA-2). -/
def sample : List Byte := [0x01#8, 0x02#8, 0xAA#8, 0x03#8, 0x04#8]
def sampleStuffed : List Byte := [0x03#8, 0x01#8, 0x02#8, 0x03#8, 0x03#8, 0x04#8]
def sampleFrame : List Byte := [0xAA#8, 0x16#8, 0x05#8, 0x03#8, 0x01#8, 0x02#8, 0x03#8, 0x03#8, 0x04#8, 0xA2#8]

/-- A block with command `op` pending. -/
def pending (op : Byte) : State := { State.reset with cmd := op, busy := true }

/-! ### Well-formedness and decoding -/

/-- R64: an access of two bytes, or of none, is ill-formed. -/
theorem test_width_two_refused : widthOk 2 = false ∧ widthOk 0 = false ∧ widthOk 1 = true := by decide
/-- R90, R91, R136: no instruction has a field that could be ill-formed. -/
theorem test_every_instruction_wf (i : Instr) : i.wf = true := by cases i <;> rfl
theorem test_wide_access_refused :
    step { State.reset with script := [.memWrite 0x04#8 2 0x01#8] } = .refused (.accessWidth 2) := rfl
theorem test_clash_refused : step { State.reset with script := [.clash] } = .refused .simultaneousAccess := rfl

theorem test_decode_crc8 : decode [0x00#8, 0b00000001#8] = .ok (.crc8, []) := by decide
theorem test_decode_crc8Chk : decode [0x00#8, 0b00000010#8] = .ok (.crc8Chk, []) := by decide
theorem test_decode_pop4 : decode [0x00#8, 0b00000011#8] = .ok (.pop4, []) := by decide
theorem test_decode_pop4Chk : decode [0x00#8, 0b00000100#8] = .ok (.pop4Chk, []) := by decide
theorem test_decode_pop4b : decode [0x00#8, 0b00000101#8] = .ok (.pop4b, []) := by decide
theorem test_decode_pop4bChk : decode [0x00#8, 0b00000110#8] = .ok (.pop4bChk, []) := by decide
theorem test_decode_stuffEnc : decode [0x00#8, 0b00010000#8] = .ok (.stuffEnc, []) := by decide
theorem test_decode_stuffDec : decode [0x00#8, 0b00010001#8] = .ok (.stuffDec, []) := by decide
theorem test_decode_frameAsm : decode [0x00#8, 0b00100000#8] = .ok (.frameAsm, []) := by decide
theorem test_decode_frameDis : decode [0x00#8, 0b00100001#8] = .ok (.frameDis, []) := by decide
theorem test_decode_crcData : decode [0b00001010#8, 0b10110010#8] = .ok (.crcData 0xB2#8, []) := by decide
/-- R93: 0x0A is the offset of CRC_DATA but no opcode. -/
theorem test_decode_illegal : decode [0x00#8, 0x0A#8] = .error (.illegalCommand 0x0A#8) := by decide
/-- R93: exactly 246 values are illegal. -/
theorem test_illegal_count :
    ((List.range 256).filter fun n => (decodeCmd (BitVec.ofNat 8 n)).toOption == none).length = 246 := by decide +kernel
theorem test_decode_other_write : decode [0x04#8, 0x01#8] = .error (.notAnInstruction 0x04#8) := by decide
theorem test_decode_short : decode [0x00#8] = .error .tooShort := by decide
/-- The table's words: a CMD row's byte is the opcode, the REGWRITE row's the offset (spec/opcode_table.json). -/
theorem test_table_words :
    [0x01, 0x02, 0x03, 0x04, 0x05, 0x06, 0x10, 0x11, 0x20, 0x21, 0x0A, 0x07].map (decodeTableWord 8) =
      [some .crc8, some .crc8Chk, some .pop4, some .pop4Chk, some .pop4b, some .pop4bChk, some .stuffEnc,
        some .stuffDec, some .frameAsm, some .frameDis, some (.crcData 0x00#8), none] := by decide

/-! ### Checksum family -/

/-- CK-3. -/
theorem test_crc8_digits : (ofNext (exec .crc8 (loaded digits))).result = 0xF4#8 := by decide +kernel
/-- CK-12: LEN = 65. -/
theorem test_crc8_badLength : (ofNext (exec .crc8 { State.reset with len := 65#8 })).errcode = 0x20#8 := by decide
/-- CK-14. -/
theorem test_crc8Chk_match : (ofNext (exec .crc8Chk { loaded digits with arg0 := 0xF4#8 })).chkOk = true := by decide +kernel
/-- CK-15: a mismatch is not an error. -/
theorem test_crc8Chk_mismatch :
    (ofNext (exec .crc8Chk { loaded digits with arg0 := 0xF5#8 })).chkOk = false ∧
      (ofNext (exec .crc8Chk { loaded digits with arg0 := 0xF5#8 })).errcode = 0x00#8 := by decide +kernel
/-- CK-19: nine ones. -/
theorem test_pop4_wraps : (ofNext (exec .pop4 (loaded [0xFF#8, 0x01#8]))).result = 0x01#8 := by decide
/-- CK-23. -/
theorem test_pop4_stuffed : (ofNext (exec .pop4 (loaded sampleStuffed))).result = 0x01#8 := by decide
/-- CK-25: ARG0[7:2] ignored. -/
theorem test_pop4Chk_low_bits :
    (ofNext (exec .pop4Chk { loaded [0xFF#8, 0x01#8] with arg0 := 0xFD#8 })).chkOk = true := by decide
/-- CK-26. -/
theorem test_pop4Chk_mismatch :
    (ofNext (exec .pop4Chk { loaded [0xFF#8, 0x01#8] with arg0 := 0x02#8 })).chkOk = false := by decide
/-- CK-27. -/
theorem test_pop4b_seven : (ofNext (exec .pop4b { State.reset with arg1 := 0x07#8 })).result = 0x03#8 := by decide
/-- CK-29: LEN = 200 is not checked. -/
theorem test_pop4b_len_unchecked :
    (ofNext (exec .pop4b { State.reset with len := 200#8, arg1 := 0x80#8 })).result = 0x01#8 := by decide
/-- CK-30. -/
theorem test_pop4bChk_match :
    (ofNext (exec .pop4bChk { State.reset with arg0 := 0x02#8, arg1 := 0x03#8 })).chkOk = true := by decide
/-- CK-32: 8 mod 4 against 2. -/
theorem test_pop4bChk_mismatch :
    (ofNext (exec .pop4bChk { State.reset with arg0 := 0xFE#8, arg1 := 0xFF#8 })).chkOk = false := by decide
/-- CS-2. -/
theorem test_crcData_seals :
    (ofNext (exec (.crcData 0x48#8) { State.reset with crcAcc := 0x48#8 })).crcAcc = 0x00#8 := by decide
/-- CS-6. -/
theorem test_crcData_busy :
    (ofNext (exec (.crcData 0x01#8) (pending 0x01#8))).crcAcc = 0x00#8 ∧
      (ofNext (exec (.crcData 0x01#8) (pending 0x01#8))).wign = true := by decide

/-! ### Stuffing family -/

/-- ST-3. -/
theorem test_stuffEnc_sample :
    (ofNext (exec .stuffEnc (loaded sample))).outBytes 6 = sampleStuffed ∧
      (ofNext (exec .stuffEnc (loaded sample))).result = 0x01#8 := by decide
/-- ST-11: 64 replacements. -/
theorem test_stuffEnc_overflow :
    (ofNext (exec .stuffEnc (loaded (List.replicate 64 0xAA#8)))).errcode = 0x16#8 := by decide
/-- ST-15. -/
theorem test_stuffDec_sample :
    (ofNext (exec .stuffDec { loaded sampleStuffed with arg0 := 0x01#8 })).outBytes 5 = sample := by decide
/-- ST-22: Truncated comes before IndexMismatch. -/
theorem test_stuffDec_truncated :
    (ofNext (exec .stuffDec { loaded [0x02#8] with arg0 := 0x05#8 })).errcode = 0x02#8 := by decide
/-- ST-25, ST-20, ST-28: the other decoder errors. -/
theorem test_stuffDecode_errors :
    stuffDecode [0x00#8, 0xAA#8] 0 = .error .startByteInInput ∧ stuffDecode [0x01#8, 0x00#8] 0 = .error .zeroCode ∧
      stuffDecode [0x01#8, 0x01#8] 0x41 = .error .indexMismatch := by decide

/-! ### Frame family -/

/-- FA-2. -/
theorem test_frameAsm_sample :
    (ofNext (exec .frameAsm (loaded sample))).outBytes 10 = sampleFrame ∧
      (ofNext (exec .frameAsm (loaded sample))).outLen = 10#8 := by decide +kernel
/-- FA-8. -/
theorem test_frameAsm_tooLong :
    (ofNext (exec .frameAsm (loaded (List.replicate 29 0x00#8)))).errcode = 0x15#8 := by decide
/-- FD-2. -/
theorem test_frameDis_sample :
    (ofNext (exec .frameDis (loaded sampleFrame))).outBytes 5 = sample ∧
      (ofNext (exec .frameDis (loaded sampleFrame))).result = 0xA2#8 := by decide +kernel
/-- FD-11: the length checksum is checked before the bound. -/
theorem test_frameDis_checksum_first :
    (ofNext (exec .frameDis (loaded [0xAA#8, 0xFF#8, 0x01#8, 0x01#8, 0x00#8]))).errcode = 0x11#8 := by decide
/-- FD-12, FD-14, FD-19, FD-20: a bound, a start byte in Q, a length and a CRC that fail. -/
theorem test_frameDisassemble_errors :
    frameDisassemble [0xAA#8, 0xFE#8, 0x01#8, 0x01#8, 0x00#8] = .error .payloadTooLong ∧
      frameDisassemble [0xAA#8, 0x05#8, 0x01#8, 0x02#8, 0xAA#8, 0x5F#8] = .error .startByteInInput ∧
      frameDisassemble [0xAA#8, 0x05#8, 0x01#8, 0x01#8, 0x00#8] = .error .lengthMismatch ∧
      frameDisassemble [0xAA#8, 0x00#8, 0x01#8, 0x01#8, 0x01#8] = .error .badCrc := by decide

/-! ### Steps -/

/-- P1, `rd STATUS` with DONE = 1 and CHK_OK = 1 reads 0x06. -/
theorem test_read_status :
    (ofNext (step { State.reset with done := true, chkOk := true, script := [.memRead 0x01#8 1] })).readData =
      some 0x06#8 := by decide
/-- P1, `ack` clears DONE and leaves CHK_OK: STATUS 0x06 becomes 0x04. -/
theorem test_ack :
    (ofNext (step { State.reset with done := true, chkOk := true, script := [.memWrite 0x01#8 1 0x0A#8] })).statusByte =
      0x04#8 := by decide
/-- P5 order A: LEN written while the illegal 0x07 is pending; STATUS reads 0x09 and LEN stays 0x00. -/
theorem test_write_while_busy :
    (ofNext (step { pending 0x07#8 with script := [.memWrite 0x04#8 1 0x05#8] })).statusByte = 0x09#8 ∧
      (ofNext (step { pending 0x07#8 with script := [.memWrite 0x04#8 1 0x05#8] })).len = 0x00#8 := by decide
/-- P5: the illegal opcode completes with IllegalCommand. -/
theorem test_illegal_completes : (ofNext (step (pending 0x07#8))).errcode = 0x21#8 := by decide
/-- P4: irq rises at the completion step when IE = 1. -/
theorem test_irq_at_completion :
    { pending 0x01#8 with ie := true }.irq = false ∧ (ofNext (step { pending 0x01#8 with ie := true })).irq = true := by
  decide
/-- R240: a reset while a command is pending discards it. -/
theorem test_reset_discards :
    (ofNext (step { pending 0x01#8 with script := [.reset] })).statusByte = 0x00#8 := by decide
/-- R38: a write to IN[63] is read back, and R61 puts it at offset 0x7F. -/
theorem test_in_read_back :
    (ofNext (step { State.reset with script := [.memWrite 0x7F#8 1 0x5A#8] })).inByte 63 = 0x5A#8 := by decide
/-- Every row's word runs as the first step after reset: CRC8 of the empty span, and CRC_DATA of 0x00. -/
theorem test_first_step_after_reset :
    (ofNext (step (State.reset.withFetchWord 8 0x01))).statusByte = 0x02#8 ∧
      (ofNext (step (State.reset.withFetchWord 8 0x0A))).statusByte = 0x00#8 := by decide

/-! ### Witnesses: a state and operands that meet the hypotheses of each statement that has any -/

theorem witness_InstructionWordsDecode :
    0x22#8 ∉ [0x01#8, 0x02#8, 0x03#8, 0x04#8, 0x05#8, 0x06#8, 0x10#8, 0x11#8, 0x20#8, 0x21#8] := by decide
theorem witness_StepRunsDecodedInstruction :
    (pending 0x21#8).busy = true ∧ decode [0x00#8, (pending 0x21#8).cmd] = .ok (.frameDis, []) ∧
      { pending 0x21#8 with script := [.complete] }.script = .complete :: [] ∧ (pending 0x21#8).script = [] ∧
      { State.reset with script := [.memWrite 0x0A#8 1 0x48#8] }.script = [.memWrite 0x0A#8 1 0x48#8] := by decide
theorem witness_PlacedTableWordRunsNext :
    decodeTableWord 8 0x21 = some .frameDis ∧ decodeTableWord 16 0x480A = some (.crcData 0x48#8) := by decide
theorem witness_OnlyRefusedAccessesStop :
    { State.reset with script := [.memRead 0x00#8 0] }.nextEvent = .memRead 0x00#8 0 ∧ 0 ≠ 1 ∧
      { State.reset with script := [.memWrite 0xFF#8 2 0x00#8] }.nextEvent = .memWrite 0xFF#8 2 0x00#8 ∧ 2 ≠ 1 ∧
      { State.reset with script := [.clash] }.nextEvent = .clash ∧ State.reset.nextEvent.admitted = true := by decide
/-- R123 (c): "equal length". -/
theorem witness_CrcLaws : sample.length = [0xFF#8, 0x00#8, 0xAA#8, 0x55#8, 0x80#8].length := by decide
/-- The boundary of R98: LEN = 64 and LEN = 65; one witness for the four span commands of the checksum family. -/
theorem witness_Crc8Completes :
    { State.reset with len := 64#8 }.len.toNat ≤ 64 ∧ 64 < { State.reset with len := 65#8 }.len.toNat := by decide
theorem witness_Crc8ChkCompletes :
    { loaded digits with arg0 := 0xF4#8 }.len.toNat ≤ 64 ∧ 64 < { State.reset with len := 255#8 }.len.toNat := by decide
theorem witness_Pop4Completes :
    (loaded (List.replicate 64 0xFF#8)).len.toNat ≤ 64 ∧ 64 < { State.reset with len := 65#8 }.len.toNat := by decide
theorem witness_Pop4ChkCompletes :
    State.reset.len.toNat ≤ 64 ∧ 64 < { State.reset with len := 65#8 }.len.toNat := by decide
theorem witness_CrcDataStreamsOneByte : State.reset.busy = false ∧ (pending 0x01#8).busy = true := by decide
theorem witness_StreamingEqualsCrc8 :
    State.reset.busy = false ∧ State.reset.crcAcc = 0x00#8 ∧
      { State.reset with script := digits.map fun b => Event.memWrite 0x0A#8 1 b }.script =
        digits.map (fun b => Event.memWrite 0x0A#8 1 b) ++ [] := by decide
/-- The longest run without a flush, and the run that is flushed. -/
theorem witness_StuffEncodeByRuns :
    (List.replicate 253 0x01#8).count 0xAA#8 = 0 ∧ (List.replicate 253 0x01#8).length ≤ 253 ∧
      (List.replicate 254 0x01#8).count 0xAA#8 = 0 ∧ (List.replicate 254 0x01#8).length = 254 := by decide +kernel
theorem witness_StuffedPayloadShape : (List.replicate 64 0xAA#8).length ≤ 64 := by decide
theorem witness_StuffRoundTrip :
    (0x00#8 :: List.replicate 63 0xAA#8).length ≤ 64 ∧ (0x00#8 :: List.replicate 63 0xAA#8).count 0xAA#8 ≤ 63 := by decide
theorem witness_StuffCanonicalForm : sampleStuffed.length ≤ 64 ∧ stuffDecode sampleStuffed 1 = .ok sample := by decide
theorem witness_StuffDecodeByBlocks :
    [[0x01#8, 0x02#8], [], List.replicate 253 0x00#8] ≠ [] ∧
      (∀ r ∈ [[0x01#8, 0x02#8], [], List.replicate 253 0x00#8], r.length ≤ 253) ∧
      ([[0x01#8, 0x02#8], [], List.replicate 253 0x00#8].flatMap
        fun r => BitVec.ofNat 8 (r.length + 1) :: r).count 0xAA#8 = 0 := by decide +kernel
theorem witness_DecoderErrorOrder :
    0xAA#8 ∈ [0x00#8, 0xAA#8] ∧
      (∀ r ∈ [[0x11#8], []], r.length ≤ 254) ∧
      0xAA#8 ∉ ([[0x11#8], []].flatMap fun r => BitVec.ofNat 8 (r.length + 1) :: r) ++ 0x00#8 :: [0x07#8] ∧
      [0x01#8, 0x02#8].length + 1 < (0x04#8).toNat ∧
      0xAA#8 ∉ ([[0x11#8], []].flatMap fun r => BitVec.ofNat 8 (r.length + 1) :: r) ++ 0x04#8 :: [0x01#8, 0x02#8] := by
  decide
theorem witness_StuffEncCompletes :
    (loaded sample).len.toNat ≤ 64 ∧ ((loaded sample).inBytes (loaded sample).len.toNat).count 0xAA#8 ≤ 63 ∧
      (loaded (List.replicate 64 0xAA#8)).len.toNat ≤ 64 ∧
      63 < ((loaded (List.replicate 64 0xAA#8)).inBytes
        (loaded (List.replicate 64 0xAA#8)).len.toNat).count 0xAA#8 ∧
      64 < { State.reset with len := 65#8 }.len.toNat := by decide
theorem witness_StuffDecCompletes :
    { loaded sampleStuffed with arg0 := 0x01#8 }.len.toNat ≤ 64 ∧
      stuffDecode ({ loaded sampleStuffed with arg0 := 0x01#8 }.inBytes 6) 1 = .ok sample ∧
      stuffDecode ((loaded [0x02#8]).inBytes 1) 0 = .error .truncated ∧
      64 < { State.reset with len := 100#8 }.len.toNat := by decide
theorem witness_StuffCommandsRoundTrip :
    (loaded sample).len.toNat ≤ 63 ∧
      exec .stuffEnc (loaded sample) = .next (ofNext (exec .stuffEnc (loaded sample))) ∧
      { loaded sampleStuffed with arg0 := 0x01#8 }.len = (ofNext (exec .stuffEnc (loaded sample))).outLen ∧
      { loaded sampleStuffed with arg0 := 0x01#8 }.arg0 = (ofNext (exec .stuffEnc (loaded sample))).result ∧
      ∀ k, k < (ofNext (exec .stuffEnc (loaded sample))).outLen.toNat →
        { loaded sampleStuffed with arg0 := 0x01#8 }.inByte k = (ofNext (exec .stuffEnc (loaded sample))).outByte k :=
  ⟨by decide, rfl, by decide, by decide, by decide⟩
theorem witness_AssembledFrameShape : (List.replicate 28 0xAA#8).length ≤ 28 := by decide
theorem witness_FrameRoundTrip : (List.replicate 28 0x55#8).length ≤ 28 := by decide
theorem witness_SingleBitFlipsAreCaught :
    sample.length ≤ 28 ∧ frameAssemble sample = .ok sampleFrame ∧ 1 ≤ 9 ∧ 9 < sampleFrame.length ∧ 7 < 8 := by decide +kernel
theorem witness_OnlyCanonicalFramesAccepted :
    sampleFrame.length ≤ 64 ∧ frameDisassemble sampleFrame = .ok sample ∧ frameAssemble sample = .ok sampleFrame := by
  decide +kernel
theorem witness_FrameAsmCompletes :
    { State.reset with len := 28#8 }.len.toNat ≤ 28 ∧ 28 < { State.reset with len := 29#8 }.len.toNat ∧
      { State.reset with len := 64#8 }.len.toNat ≤ 64 ∧ 64 < { State.reset with len := 65#8 }.len.toNat := by decide
theorem witness_FrameDisCompletes :
    (loaded sampleFrame).len.toNat ≤ 64 ∧ frameDisassemble ((loaded sampleFrame).inBytes 10) = .ok sample ∧
      frameDisassemble (State.reset.inBytes 0) = .error .frameTooShort ∧
      64 < { State.reset with len := 65#8 }.len.toNat := by decide +kernel
theorem witness_FrameCommandsRoundTrip :
    (loaded sample).len.toNat ≤ 28 ∧
      exec .frameAsm (loaded sample) = .next (ofNext (exec .frameAsm (loaded sample))) ∧
      (loaded sampleFrame).len = (ofNext (exec .frameAsm (loaded sample))).outLen ∧
      ∀ k, k < (ofNext (exec .frameAsm (loaded sample))).outLen.toNat →
        (loaded sampleFrame).inByte k = (ofNext (exec .frameAsm (loaded sample))).outByte k :=
  ⟨by decide +kernel, rfl, by decide +kernel, by decide +kernel⟩
theorem witness_InstructionsFrame :
    Instr.frameDis.isCommand = true ∧ Instr.pop4bChk.isCommand = true ∧ Instr.pop4bChk.byteOutput = false ∧
      exec .frameDis State.reset = .next (ofNext (exec .frameDis State.reset)) ∧
      exec .pop4bChk State.reset = .next (ofNext (exec .pop4bChk State.reset)) ∧
      exec (.crcData 0x01#8) State.reset = .next (ofNext (exec (.crcData 0x01#8) State.reset)) ∧
      State.reset.busy = false ∧ (pending 0x01#8).busy = true :=
  ⟨rfl, rfl, rfl, rfl, rfl, rfl, rfl, rfl⟩
theorem witness_ErrorOutcomesClearResults :
    Instr.crc8Chk.isCommand = true ∧ exec .crc8Chk State.reset = .next (ofNext (exec .crc8Chk State.reset)) ∧
      (ofNext (exec .crc8Chk State.reset)).chkOk = true ∧
      (ofNext (exec .crc8 { State.reset with len := 65#8 })).errcode ≠ 0x00#8 :=
  ⟨rfl, rfl, by decide, by decide⟩
theorem witness_OutPastOutLenIsDrawn :
    Instr.frameAsm.byteOutput = true ∧
      exec .frameAsm (loaded sample) = .next (ofNext (exec .frameAsm (loaded sample))) ∧
      (ofNext (exec .frameAsm (loaded sample))).outLen.toNat ≤ 10 ∧ 10 < 128 :=
  ⟨rfl, rfl, by decide, by decide⟩
/-- Two states that agree on what POP4_CHK reads: IN past LEN, ARG0[7:2] and ARG1 differ. -/
theorem witness_CommandsReadOnlyTheirOperands :
    let s := { loaded sample with len := 4#8, arg0 := 0xFD#8, arg1 := 0x01#8 }
    let s' := { loaded [0x01#8, 0x02#8, 0xAA#8, 0x03#8, 0x77#8] with len := 4#8, arg0 := 0x01#8 }
    Instr.pop4Chk.isCommand = true ∧ s.len = s'.len ∧ s.len.toNat ≤ 64 ∧
      (∀ k, k < s.len.toNat → s.inByte k = s'.inByte k) ∧
      s.arg0 &&& Instr.pop4Chk.arg0Mask = s'.arg0 &&& Instr.pop4Chk.arg0Mask ∧ Instr.pop4Chk.readsArg1 = false := by
  decide
/-- The edges of R93's ranges, at issue and at completion. -/
theorem witness_IllegalOpcodesComplete :
    (0x00#8).toNat = 0 ∧ (0x07 ≤ (0x0F#8).toNat ∧ (0x0F#8).toNat ≤ 0x0F) ∧
      (0x12 ≤ (0x12#8).toNat ∧ (0x1F#8).toNat ≤ 0x1F) ∧ 0x22 ≤ (0xFF#8).toNat ∧
      State.reset.busy = false ∧ (pending 0x22#8).busy = true ∧ (pending 0x22#8).cmd = 0x22#8 := by decide
theorem witness_WritesWhileIdle :
    State.reset.busy = false ∧ { State.reset with script := [.memWrite 0x3F#8 1 0x01#8] }.script =
        [.memWrite 0x3F#8 1 0x01#8] ∧
      (0x3F#8).toNat < 0x40 ∧ 0x80 ≤ (0x80#8).toNat ∧ 0x40 ≤ (0x7F#8).toNat ∧ (0x7F#8).toNat < 0x80 := by decide
theorem witness_WritesWhileBusy :
    (pending 0x01#8).busy = true ∧ { pending 0x01#8 with script := [.memWrite 0x40#8 1 0x01#8] }.script =
      [.memWrite 0x40#8 1 0x01#8] := by decide
theorem witness_ReservedOffsetsReadZero :
    0x0B ≤ (0x0B#8).toNat ∧ (0x3F#8).toNat ≤ 0x3F ∧
      { pending 0x01#8 with script := [.memRead 0x0B#8 1] }.script = [.memRead 0x0B#8 1] ∧
      { State.reset with script := [.memWrite 0x3F#8 1 0xFF#8] }.script = [.memWrite 0x3F#8 1 0xFF#8] := by decide
theorem witness_ReadsWhileIdle :
    State.reset.busy = false ∧ { State.reset with script := [.memRead 0x80#8 1] }.script = [.memRead 0x80#8 1] := by decide
theorem witness_ReadsWhileBusy :
    (pending 0x01#8).busy = true ∧ { pending 0x01#8 with script := [.memRead 0x80#8 1] }.script = [.memRead 0x80#8 1] ∧
      0x80 ≤ (0x80#8).toNat ∧ 0x7F#8 ∉ [0x01#8, 0x03#8, 0x07#8, 0x08#8] ∧ (0x7F#8).toNat < 0x80 := by decide
/-- Both directions: a write that is ignored sets WIGN, and an acknowledgement clears it. -/
theorem witness_WignIsSticky :
    let s := { pending 0x01#8 with script := [.memWrite 0x7F#8 1 0x00#8] }
    let u := { State.reset with wign := true, script := [.memWrite 0x01#8 1 0x08#8] }
    step s = .next (ofNext (step s)) ∧ s.wign = false ∧ (ofNext (step s)).wign = true ∧
      step u = .next (ofNext (step u)) ∧ u.wign = true ∧ (ofNext (step u)).wign = false :=
  ⟨rfl, rfl, rfl, rfl, rfl, rfl⟩
theorem witness_IrqIsALevel :
    let s := { State.reset with done := true, script := [.memWrite 0x02#8 1 0x01#8] }
    Instr.crc8.isCommand = true ∧ exec .crc8 State.reset = .next (ofNext (exec .crc8 State.reset)) ∧
      step s = .next (ofNext (step s)) ∧ s.irq = false ∧ (ofNext (step s)).irq = true ∧
      (0x02#8).getLsbD 1 = true ∧ { State.reset with script := [.reset] }.nextEvent = .reset :=
  ⟨rfl, rfl, rfl, rfl, rfl, rfl, rfl⟩
theorem witness_InputsFrozenWhileBusy :
    let s := { pending 0x01#8 with script := [.memWrite 0x04#8 1 0x05#8] }
    s.busy = true ∧ s.nextEvent ≠ .reset ∧ step s = .next (ofNext (step s)) :=
  ⟨rfl, by decide, rfl⟩
theorem witness_OutputsStableUntilIssueOrReset :
    let s := { State.reset with done := true, script := [.memWrite 0x40#8 1 0x05#8] }
    s.busy = false ∧ s.nextEvent ≠ .reset ∧ (∀ w v, s.nextEvent ≠ .memWrite 0x00#8 w v) ∧
      step s = .next (ofNext (step s)) :=
  ⟨rfl, by decide, (fun _ _ h => nomatch h), rfl⟩
/-- A write that changes IN[0], from 0x01 to 0x02. -/
theorem witness_BuffersStable :
    let s := { loaded [0x01#8] with script := [.memWrite 0x40#8 1 0x02#8] }
    step s = .next (ofNext (step s)) ∧ s.nextEvent ≠ .reset ∧ (ofNext (step s)).inByte 0 ≠ s.inByte 0 :=
  ⟨rfl, by decide, by decide⟩
/-- A completion that changes OUT[0], from 0x07 to 0x01 (ST-1). -/
theorem witness_BuffersStable_out :
    let s := { pending 0x10#8 with mem := [(0x80, 0x07#8)] }
    step s = .next (ofNext (step s)) ∧ s.nextEvent ≠ .reset ∧ (ofNext (step s)).outByte 0 ≠ s.outByte 0 :=
  ⟨rfl, by decide, by decide⟩
theorem witness_IdleEngineDoesNothing :
    State.reset.busy = false ∧ State.reset.script = [] ∧ { State.reset with script := [.complete] }.script = [.complete] := by
  decide
theorem witness_PendingCommandCompletes :
    let s := { pending 0x01#8 with script := [.memRead 0x01#8 1, .complete] }
    s.busy = true ∧ (∀ e ∈ s.script, e.admitted = true) ∧ Event.reset ∉ s.script := by decide
theorem witness_ResetClearsRegisters : { pending 0x21#8 with script := [.reset] }.script = [.reset] := by decide
theorem witness_ResetDrawsBuffers : { loaded sample with script := [.reset] }.script = [.reset] := by decide
/-- A completion, from a state that meets all five invariants. -/
theorem witness_BusyAndDoneStayExclusive :
    (pending 0x21#8).exclusive ∧ step (pending 0x21#8) = .next (ofNext (step (pending 0x21#8))) :=
  ⟨by unfold State.exclusive; decide, rfl⟩
theorem witness_MemoryStaysCanonical :
    (loaded sample).memCanonical ∧ step (loaded sample) = .next (ofNext (step (loaded sample))) :=
  ⟨by unfold State.memCanonical; decide, rfl⟩
theorem witness_ErrcodeStaysListed :
    (pending 0x21#8).errcodeListed ∧ step (pending 0x21#8) = .next (ofNext (step (pending 0x21#8))) :=
  ⟨by unfold State.errcodeListed; decide, rfl⟩
theorem witness_OutLenStaysBounded :
    { State.reset with outLen := 65#8 }.outLenBounded ∧ step (pending 0x10#8) = .next (ofNext (step (pending 0x10#8))) :=
  ⟨by unfold State.outLenBounded; decide, rfl⟩
theorem witness_DrawsStayTaken :
    (pending 0x21#8).drawsTaken ∧ step (pending 0x21#8) = .next (ofNext (step (pending 0x21#8))) :=
  ⟨by unfold State.drawsTaken; decide, rfl⟩

end Sys2Proof.Tests
end

section
/-! PROOFS of the statements about the state: what a step can do to BUSY and DONE, to OUT_LEN, to WIGN and to
the buffers, what a read returns, and that a pending command completes. Each statement about every step is
proved of the relation `Took`, by its cases, and then read off `step_took`. -/
namespace Sys2Proof.Machine

/-! ### How many bytes a command gives -/

theorem emitCode_length (t : Stuffer) : (emitCode t).length = t.q.length := by simp [emitCode]

theorem closeRun_q_length (t : Stuffer) : (closeRun t).q.length = t.q.length + 1 := by
  simp [closeRun, emitCode_length]

/-- Where the code counter cannot reach the flush value, the encoder's loop emits one byte per byte it reads. -/
theorem foldl_stuffStep_q_length (p : List Byte) (t : Stuffer) (hpos : 1 ≤ t.code)
    (hlt : t.code + p.length < Config.flushCode) : (p.foldl stuffStep t).q.length = t.q.length + p.length := by
  induction p generalizing t with
  | nil => rfl
  | cons b p ih =>
    rw [List.length_cons] at hlt ⊢
    rw [List.foldl_cons]
    by_cases hb : b = Config.startByte
    · have hcode : (closeRun t).code = 1 := rfl
      rw [hb, stuffStep_startByte, ih _ (by simp [hcode]) (by simp only [hcode]; omega)]
      simp only [closeRun_q_length]
      omega
    · rw [stuffStep_data hb (by omega), ih _ (by simp) (by simp only; omega)]
      simp only [List.length_append, List.length_singleton]
      omega

/-- R153 up to the first possible flush: stuffing adds one byte. -/
theorem stuffEncode_length {p : List Byte} (h : p.length ≤ 253) : (stuffEncode p).1.length = p.length + 1 := by
  have hq : (p.foldl stuffStep stufferInit).q.length = stufferInit.q.length + p.length :=
    foldl_stuffStep_q_length p stufferInit (Nat.le_refl 1) (by simp only [stufferInit, Config.flushCode]; omega)
  calc (stuffEncode p).1.length = (p.foldl stuffStep stufferInit).q.length := emitCode_length _
    _ = p.length + 1 := by rw [hq, Nat.add_comm]; rfl

theorem checksumOk_bytes {result : Byte} {chk : Bool} {r : CmdOk} (h : checksumOk result chk = .ok r) :
    r.bytes = [] := by
  cases h; rfl

theorem stuffEncOutcome_bytes {p : List Byte} {r : CmdOk} (h : stuffEncOutcome p = .ok r) :
    r.bytes = (stuffEncode p).1 := by
  simp only [stuffEncOutcome] at h
  split_ifs at h
  cases h; rfl

theorem stuffDecOutcome_bytes {idx : Nat} {arg0 : Byte} {q : List Byte} {r : CmdOk}
    (h : stuffDecOutcome idx arg0 q = .ok r) : stuffDecode q idx = .ok r.bytes := by
  unfold stuffDecOutcome at h
  cases hd : stuffDecode q idx with
  | error e => rw [hd] at h; cases h
  | ok p => rw [hd] at h; cases h; rfl

theorem frameAsmOutcome_bytes {p : List Byte} {r : CmdOk} (h : frameAsmOutcome p = .ok r) :
    frameAssemble p = .ok r.bytes := by
  unfold frameAsmOutcome at h
  cases hf : frameAssemble p with
  | error e => rw [hf] at h; cases h
  | ok f => rw [hf] at h; cases h; rfl

theorem frameDisOutcome_bytes {f : List Byte} {r : CmdOk} (h : frameDisOutcome f = .ok r) :
    frameDisassemble f = .ok r.bytes := by
  unfold frameDisOutcome at h
  cases hp : frameDisassemble f with
  | error e => rw [hp] at h; cases h
  | ok p => rw [hp] at h; cases h; rfl

theorem frameAssemble_length {p f : List Byte} (h : frameAssemble p = .ok f) : f.length = p.length + 5 := by
  obtain ⟨hlen, -, rfl⟩ := frameAssemble_ok h
  simp [stuffEncode_length (p := p) (by omega)]

/-- A command over the span succeeds only on a span of at most 64 bytes (R98). -/
theorem State.overSpan_eq_ok {s : State} {f : List Byte → CmdOutcome} {r : CmdOk} (h : s.overSpan f = .ok r) :
    (s.inBytes s.len.toNat).length ≤ 64 ∧ f (s.inBytes s.len.toNat) = .ok r := by
  by_cases hlen : s.len.toNat ≤ 64
  · exact ⟨by rwa [s.inBytes_length], by rwa [State.overSpan_ok f hlen] at h⟩
  · rw [State.overSpan_badLength f (Nat.not_le.1 hlen)] at h
    cases h

/-- R35: the longest output is a stuffed payload of 64 bytes. -/
theorem State.outcome_bytes_length {s : State} {i : Instr} {r : CmdOk} (h : s.outcome i = .ok r) :
    r.bytes.length ≤ 65 := by
  cases i with
  | crc8 | crc8Chk | pop4 | pop4Chk => simp [checksumOk_bytes (State.overSpan_eq_ok h).2]
  | pop4b | pop4bChk | crcData _ => simp [checksumOk_bytes h]
  | stuffEnc =>
    obtain ⟨hlen, hok⟩ := State.overSpan_eq_ok h
    rw [stuffEncOutcome_bytes hok, stuffEncode_length (by omega)]
    omega
  | stuffDec =>
    obtain ⟨hlen, hok⟩ := State.overSpan_eq_ok h
    have := stuffDecode_length (stuffDecOutcome_bytes hok)
    omega
  | frameAsm =>
    have hok := frameAsmOutcome_bytes (State.overSpan_eq_ok h).2
    have hpayload := (frameAssemble_ok hok).1
    rw [frameAssemble_length hok]
    omega
  | frameDis =>
    obtain ⟨-, -, -, hplen, -, -, hlen, -⟩ := frameDisassemble_ok (frameDisOutcome_bytes (State.overSpan_eq_ok h).2)
    omega

theorem State.finish_outcome_outLenBounded (s : State) (w : Bool) (i : Instr) :
    (s.finish w (s.outcome i)).outLenBounded := by
  unfold State.outLenBounded
  cases ho : s.outcome i with
  | error e => simp [State.finish_error]
  | ok r =>
    have := State.outcome_bytes_length ho
    simp only [State.finish_ok, State.commitOk_outLen, BitVec.toNat_ofNat]
    omega

/-! ### What a host access does to each part of the state -/

@[simp] theorem State.hostRead_outLen (s : State) (a : Byte) : (s.hostRead a).outLen = s.outLen := by
  obtain ⟨b, e⟩ | ⟨-, b, e⟩ := s.hostRead_cases a <;> simp [e]

@[simp] theorem State.hostRead_wign (s : State) (a : Byte) : (s.hostRead a).wign = s.wign := by
  obtain ⟨b, e⟩ | ⟨-, b, e⟩ := s.hostRead_cases a <;> simp [e]

@[simp] theorem State.hostRead_busy (s : State) (a : Byte) : (s.hostRead a).busy = s.busy := by
  obtain ⟨b, e⟩ | ⟨-, b, e⟩ := s.hostRead_cases a <;> simp [e]

@[simp] theorem State.hostRead_done (s : State) (a : Byte) : (s.hostRead a).done = s.done := by
  obtain ⟨b, e⟩ | ⟨-, b, e⟩ := s.hostRead_cases a <;> simp [e]

@[simp] theorem State.hostRead_script (s : State) (a : Byte) : (s.hostRead a).script = s.script := by
  obtain ⟨b, e⟩ | ⟨-, b, e⟩ := s.hostRead_cases a <;> simp [e]

@[simp] theorem State.hostRead_byteAt (s : State) (a : Byte) (x : Nat) : (s.hostRead a).byteAt x = s.byteAt x := by
  obtain ⟨b, e⟩ | ⟨-, b, e⟩ := s.hostRead_cases a <;> rw [e] <;> rfl

@[simp] theorem State.hostWrite_outLen (s : State) (a v : Byte) : (s.hostWrite a v).outLen = s.outLen := by
  cases hb : s.busy with
  | true =>
    rw [State.hostWrite_busy a v hb]
    obtain e | e | e | e := s.writeBusy_cases v (locOf a) hb <;> simp [e]
  | false =>
    rw [State.hostWrite_idle a v hb]
    cases locOf a <;> simp [State.writeIdle]

@[simp] theorem State.hostWrite_script (s : State) (a v : Byte) : (s.hostWrite a v).script = s.script := by
  cases hb : s.busy with
  | true =>
    rw [State.hostWrite_busy a v hb]
    obtain e | e | e | e := s.writeBusy_cases v (locOf a) hb <;> simp [e]
  | false =>
    rw [State.hostWrite_idle a v hb]
    cases locOf a <;> simp [State.writeIdle]

/-- A write never ends a pending command. -/
theorem State.hostWrite_pending {s : State} (a v : Byte) (hb : s.busy = true) : (s.hostWrite a v).busy = true := by
  rw [State.hostWrite_busy a v hb]
  obtain e | e | e | e := s.writeBusy_cases v (locOf a) hb <;> simp [e, hb]

/-- A write keeps BUSY and DONE apart: an issue clears DONE, and nothing else sets either. -/
theorem State.hostWrite_exclusive {s : State} (a v : Byte) (h : s.exclusive) : (s.hostWrite a v).exclusive := by
  cases hb : s.busy with
  | true =>
    have hd : s.done = false := by simpa [State.exclusive, hb] using h
    rw [State.hostWrite_busy a v hb]
    obtain e | e | e | e := s.writeBusy_cases v (locOf a) hb <;> simp [e, State.exclusive, hd]
  | false =>
    rw [State.hostWrite_idle a v hb]
    cases locOf a <;> simp [State.writeIdle, State.exclusive, hb]

/-! ### BUSY, DONE and OUT_LEN -/

theorem Took.exclusive {s t : State} {e : Event} (h : Took s e t) (hs : s.exclusive) : t.exclusive := by
  cases h with
  | idle => exact hs
  | command => simp [State.exclusive]
  | illegal => simp [State.exclusive]
  | read a => simpa [State.exclusive] using hs
  | write a v => exact State.hostWrite_exclusive a v hs
  | reset => simp [State.exclusive, State.reset]

/-- Settles O55: a completion and a reset clear BUSY, an issue clears DONE, and no other step sets either. -/
theorem busyAndDoneStayExclusive : Obligations.BusyAndDoneStayExclusive :=
  fun _ _ hs hstep => (step_took hstep).exclusive hs

theorem Took.outLenBounded {s t : State} {e : Event} (h : Took s e t) (hs : s.outLenBounded) : t.outLenBounded := by
  cases h with
  | idle => exact hs
  | command i => exact s.finish_outcome_outLenBounded _ i
  | illegal => simp [State.outLenBounded]
  | read a => simpa [State.outLenBounded] using hs
  | write a v => simpa [State.outLenBounded] using hs
  | reset => simp [State.outLenBounded, State.reset]

/-- Settles O58: only a completion sets OUT_LEN, and no command gives more than 65 bytes. -/
theorem outLenStaysBounded : Obligations.OutLenStaysBounded :=
  fun _ _ hs hstep => (step_took hstep).outLenBounded hs

/-! ### What a read returns -/

@[simp] theorem State.taken_stored (s : State) (l : Loc) : s.taken.stored l = s.stored l := by cases l <;> rfl

/-- STATUS bit by bit (R24 to R28). -/
theorem State.statusWith_bits (s : State) (chk : Bool) :
    (s.statusWith chk).getLsbD 0 = s.busy ∧ (s.statusWith chk).getLsbD 1 = s.done ∧
      (s.statusWith chk).getLsbD 2 = chk ∧ (s.statusWith chk).getLsbD 3 = s.wign ∧
      s.statusWith chk >>> 4 = 0#8 := by
  unfold State.statusWith
  generalize s.busy = b, s.done = d, s.wign = w
  revert b d chk w
  decide

/-- CTRL bit by bit (R29). -/
theorem State.ctrlByte_bits (s : State) : s.ctrlByte.getLsbD 0 = s.ie ∧ s.ctrlByte >>> 1 = 0#8 := by
  unfold State.ctrlByte
  generalize s.ie = b
  revert b
  decide

theorem State.hostRead_draw {s : State} {a b : Byte} (hb : s.busy = true) (h : s.readBusy (locOf a) = some b) :
    s.hostRead a = s.countDraw.answer b := by
  simp [State.hostRead, hb, h]

theorem State.hostRead_stored {s : State} {a : Byte} (h : s.readBusy (locOf a) = none) :
    s.hostRead a = s.answer (s.stored (locOf a)) := by
  simp [State.hostRead, h]

/-- R69: the outputs of the pending command read as a draw. -/
theorem State.readBusy_output (s : State) {a : Byte} (h : a ∈ [0x03#8, 0x07#8, 0x08#8] ∨ 0x80 ≤ a.toNat) :
    s.readBusy (locOf a) = some (Config.draw s.draws) := by
  obtain h | h := h
  · simp only [List.mem_cons, List.not_mem_nil, or_false] at h
    obtain rfl | rfl | rfl := h <;> rfl
  · rw [locOf_of_out h]
    rfl

/-- R69: every location but STATUS and the outputs reads as stored. -/
theorem State.readBusy_other (s : State) {a : Byte} (h : a ∉ [0x01#8, 0x03#8, 0x07#8, 0x08#8]) (hlt : a.toNat < 0x80) :
    s.readBusy (locOf a) = none := by
  simp only [List.mem_cons, List.not_mem_nil, or_false, not_or, ← locOf_eq_status, ← locOf_eq_errcode,
    ← locOf_eq_result, ← locOf_eq_outLen] at h
  obtain ⟨hstatus, herrcode, hresult, houtLen⟩ := h
  have hout (i : Nat) : locOf a ≠ .outBuf i := fun hi => by have := (locOf_outBuf hi).2; omega
  cases hl : locOf a with
  | status => exact absurd hl hstatus
  | errcode => exact absurd hl herrcode
  | result => exact absurd hl hresult
  | outLen => exact absurd hl houtLen
  | outBuf i => exact absurd hl (hout i)
  | _ => rfl

/-- Settles O44: the port answers the stored value of the location that the offset names. -/
theorem readsWhileIdle : Obligations.ReadsWhileIdle := by
  intro s a rest hb hs
  have hstep : step s = .next { s with readData := some (s.stored (locOf a)), script := rest } := by
    rw [step_memRead (State.nextEvent_cons hs), State.hostRead_idle a (s.taken_busy.trans hb), State.taken_stored,
      State.taken_cons hs]
    rfl
  refine ⟨_, hstep, fun h => h ▸ rfl, fun h => ?status, fun h => ?ctrl, fun h => h ▸ rfl, fun h => h ▸ rfl,
    fun h => h ▸ rfl, fun h => h ▸ rfl, fun h => h ▸ rfl, fun h => h ▸ rfl, fun h => h ▸ rfl, fun h => h ▸ rfl,
    fun h1 h2 => ?inBuf, fun h => ?outBuf⟩
  case status =>
    subst h
    have hbits := s.statusWith_bits s.chkOk
    rwa [hb] at hbits
  case ctrl =>
    subst h
    exact s.ctrlByte_bits
  case inBuf => rw [locOf_of_in h1 h2]; rfl
  case outBuf => rw [locOf_of_out h]; rfl

/-- Settles O45: an output of the pending command reads as the next draw, bit 2 of STATUS as a bit of it, and
every other location as stored. -/
theorem readsWhileBusy : Obligations.ReadsWhileBusy := by
  intro s a rest hb hs
  have hb' : s.taken.busy = true := hb
  rw [step_memRead (State.nextEvent_cons hs)]
  refine ⟨fun ha => ?_, ?_, fun ha hlt => ?_⟩
  · rw [State.hostRead_draw hb' (s.taken.readBusy_output ha), State.taken_cons hs]
    rfl
  · rintro rfl
    have hbits := s.statusWith_bits ((Config.draw s.draws).getLsbD 2)
    rw [hb] at hbits
    refine ⟨_, ?_, hbits⟩
    rw [State.hostRead_draw hb' rfl, State.taken_cons hs]
    rfl
  · rw [State.hostRead_stored (s.taken.readBusy_other ha hlt), State.taken_stored, State.taken_cons hs]
    rfl

/-! ### WIGN -/

/-- The locations whose writes are ignored while BUSY = 1 (R68). -/
def Loc.locked : Loc → Bool
  | .cmd | .len | .arg0 | .arg1 | .crcAcc | .crcData | .inBuf _ => true
  | .status | .ctrl | .errcode | .result | .outLen | .reserved | .outBuf _ => false

theorem locked_locOf (a : Byte) : (locOf a).locked = lockedOffset a := by revert a; decide

/-- R27, R68: what a write leaves in WIGN. -/
theorem State.hostWrite_wign (s : State) (a v : Byte) :
    (s.hostWrite a v).wign =
      if a = 0x01#8 then s.wign && !v.getLsbD 3 else s.wign || (s.busy && lockedOffset a) := by
  simp only [← locked_locOf, ← locOf_eq_status]
  cases hb : s.busy with
  | true =>
    rw [State.hostWrite_busy a v hb]
    cases locOf a <;> simp [State.writeBusy, Loc.locked, hb]
  | false =>
    rw [State.hostWrite_idle a v hb]
    cases locOf a <;> simp [State.writeIdle, hb]

theorem Took.wign_set {s t : State} {e : Event} (h : Took s e t) (hs : s.wign = false) :
    t.wign = true ↔ s.busy = true ∧ ∃ a v, e = .memWrite a 1 v ∧ lockedOffset a = true := by
  cases h with
  | write a v =>
    have hstatus : lockedOffset 0x01#8 = false := rfl
    by_cases ha : a = 0x01#8 <;> simp [State.hostWrite_wign, ha, hs, hstatus]
  | reset => simp [State.reset]
  | idle | command | illegal | read _ => simp [hs]

theorem Took.wign_cleared {s t : State} {e : Event} (h : Took s e t) (hs : s.wign = true) :
    t.wign = false ↔ e = .reset ∨ ∃ v, e = .memWrite 0x01#8 1 v ∧ v.getLsbD 3 = true := by
  cases h with
  | write a v => by_cases ha : a = 0x01#8 <;> simp [State.hostWrite_wign, ha, hs, -BitVec.getLsbD_eq_getElem]
  | reset => simp [State.reset]
  | idle | command | illegal | read _ => simp [hs]

/-- Settles O46: an ignored write sets WIGN, W1C and a reset clear it, and every other step keeps it. -/
theorem wignIsSticky : Obligations.WignIsSticky :=
  fun _ _ hstep => ⟨(step_took hstep).wign_set, (step_took hstep).wign_cleared⟩

/-! ### The inputs, and the bytes of IN and OUT -/

theorem State.sameInputs_refl (s : State) : s.sameInputs s := ⟨rfl, rfl, rfl, rfl, fun _ _ => rfl⟩

theorem State.finish_inByte (s : State) (w : Bool) (o : CmdOutcome) {i : Nat} (hi : i < 64) :
    (s.finish w o).inByte i = s.inByte i :=
  s.finish_byteAt_in w o (by simp only [inStart, outStart]; omega)

theorem State.finish_sameInputs (s : State) (w : Bool) (o : CmdOutcome) : s.sameInputs (s.finish w o) :=
  ⟨s.finish_cmd w o, s.finish_len w o, s.finish_arg0 w o, s.finish_arg1 w o,
    fun _ hi => s.finish_inByte w o hi⟩

theorem State.hostRead_sameInputs (s : State) (a : Byte) : s.sameInputs (s.hostRead a) := by
  obtain ⟨b, e⟩ | ⟨-, b, e⟩ := s.hostRead_cases a <;> rw [e] <;> exact s.sameInputs_refl

theorem State.hostWrite_sameInputs {s : State} (a v : Byte) (hb : s.busy = true) : s.sameInputs (s.hostWrite a v) := by
  rw [State.hostWrite_busy a v hb]
  obtain e | e | e | e := s.writeBusy_cases v (locOf a) hb <;> rw [e] <;> exact s.sameInputs_refl

theorem Took.sameInputs {s t : State} {e : Event} (h : Took s e t) (hb : s.busy = true) (hr : e ≠ .reset) :
    s.sameInputs t := by
  cases h with
  | idle => exact s.sameInputs_refl
  | command i => exact s.finish_sameInputs _ _
  | illegal => exact s.finish_sameInputs false (.error .illegalCommand)
  | read a => exact s.hostRead_sameInputs a
  | write a v => exact State.hostWrite_sameInputs a v hb
  | reset => exact absurd rfl hr

/-- Settles O48: while BUSY = 1 a write to an input is ignored, and a completion writes outputs alone. -/
theorem inputsFrozenWhileBusy : Obligations.InputsFrozenWhileBusy :=
  fun _ _ hb hr hstep => (step_took hstep).sameInputs hb hr

/-- R38: a write stores its byte exactly where it hits IN while BUSY = 0. -/
theorem State.hostWrite_byteAt (s : State) (a v : Byte) (x : Nat) :
    (s.hostWrite a v).byteAt x =
      if s.busy = false ∧ a.toNat = x ∧ 0x40 ≤ x ∧ x < 0x80 then v else s.byteAt x := by
  cases hb : s.busy with
  | true =>
    rw [State.hostWrite_busy a v hb, if_neg (by simp)]
    obtain e | e | e | e := s.writeBusy_cases v (locOf a) hb <;> rw [e] <;> rfl
  | false =>
    rw [State.hostWrite_idle a v hb]
    cases hl : locOf a with
    | inBuf i =>
      obtain ⟨hi, ha⟩ := locOf_inBuf hl
      by_cases hx : a.toNat = x
      · rw [if_pos ⟨rfl, hx, by omega⟩, ← hx, ha]
        exact s.storeIn_byteAt_same i v
      · rw [if_neg fun ⟨_, h, _⟩ => hx h]
        exact s.storeIn_byteAt_ne v (by simp only [inStart]; omega)
    | _ =>
      have hout : ¬ (0x40 ≤ a.toNat ∧ a.toNat < 0x80) := fun ⟨hge, hlt⟩ => by simp [locOf_of_in hge hlt] at hl
      rw [if_neg (by rintro ⟨-, rfl, hin⟩; exact hout hin)]
      simp [State.writeIdle, State.byteAt, State.freshAt]

/-- A byte of IN that a step changes is the one written. -/
theorem Took.inByte_changed {s t : State} {e : Event} {k : Nat} (h : Took s e t) (hr : e ≠ .reset) (hk : k < 64)
    (hne : t.inByte k ≠ s.inByte k) :
    s.busy = false ∧ ∃ a v, e = .memWrite a 1 v ∧ a.toNat = 0x40 + k ∧ t.inByte k = v := by
  cases h with
  | idle => exact absurd rfl hne
  | command i => exact absurd (s.finish_inByte _ _ hk) hne
  | illegal => exact absurd rfl hne
  | read a => exact absurd (s.hostRead_byteAt a _) hne
  | write a v =>
    unfold State.inByte at hne ⊢
    rw [s.hostWrite_byteAt] at hne ⊢
    split_ifs at hne ⊢ with hhit
    · obtain ⟨hidle, ha, -⟩ := hhit
      exact ⟨hidle, a, v, rfl, ha, rfl⟩
    · exact absurd rfl hne
  | reset => exact absurd rfl hr

/-- A byte of OUT changes only with the commit of a byte-output command. -/
theorem Took.outByte_changed {s t : State} {e : Event} {k : Nat} (h : Took s e t) (hr : e ≠ .reset)
    (hne : t.outByte k ≠ s.outByte k) :
    s.busy = true ∧ e = .complete ∧ ∃ i, decodeCmd s.cmd = .ok i ∧ i.byteOutput = true := by
  cases h with
  | idle => exact absurd rfl hne
  | command i hb hi =>
    refine ⟨hb, rfl, i, hi, ?_⟩
    by_contra hout
    rw [Bool.not_eq_true] at hout
    exact hne (by rw [hout]; exact s.finish_false_byteAt _ _)
  | illegal => exact absurd rfl hne
  | read a => exact absurd (s.hostRead_byteAt a _) hne
  | write a v =>
    refine absurd ?_ hne
    unfold State.outByte
    rw [s.hostWrite_byteAt, if_neg (by simp only [outStart]; omega)]
  | reset => exact absurd rfl hr

/-- Settles O50: IN changes where the host writes it while idle, OUT where a byte-output command commits. -/
theorem buffersStable : Obligations.BuffersStable :=
  fun _ _ _ hstep hr => ⟨(step_took hstep).inByte_changed hr, fun _ => (step_took hstep).outByte_changed hr⟩

/-! ### The engine's turn -/

theorem step_complete_cons {s : State} {rest : List Event} (h : s.script = .complete :: rest) :
    step s = (State.engineTurn { s with script := rest }).outcome := by
  rw [step_complete (State.nextEvent_cons h), State.taken_cons h]

/-- With nothing scheduled the turn is the engine's (log 4). -/
theorem step_nil {s : State} (h : s.script = []) : step s = s.engineTurn.outcome := by
  rw [step_complete (by simp [State.nextEvent, h]), State.taken_nil h]

theorem decodeCmd_of_decode {op : Byte} {i : Instr} (h : decode [cmdOffset, op] = .ok (i, [])) :
    decodeCmd op = .ok i := by
  simp only [decode, decodeWrite, if_pos] at h
  cases hd : decodeCmd op with
  | ok j => rw [hd] at h; cases h; rfl
  | error e => rw [hd] at h; cases h

/-- Settles O3: the engine's turn and the write to CRC_DATA, each by the equation of its event. -/
theorem stepRunsDecodedInstruction : Obligations.StepRunsDecodedInstruction := by
  refine ⟨fun s i hb hdec => ⟨fun rest hs => ?_, fun hs => ?_⟩, fun s v rest hs => ⟨rfl, ?_⟩⟩
  · rw [step_complete_cons hs]
    exact engineTurn_command hb (decodeCmd_of_decode hdec)
  · rw [step_nil hs]
    exact engineTurn_command hb (decodeCmd_of_decode hdec)
  · rw [step_memWrite (State.nextEvent_cons hs), State.taken_cons hs, State.hostWrite_crcData, exec_crcData]

/-- Settles O51: an idle engine's turn gives the state it was taken in. -/
theorem idleEngineDoesNothing : Obligations.IdleEngineDoesNothing := by
  intro s hb
  refine ⟨fun hs => ?_, fun rest hs => ?_⟩
  · rw [step_nil hs, engineTurn_idle hb]
  · rw [step_complete_cons hs]
    exact engineTurn_idle hb

/-! ### A pending command completes -/

/-- While a command is pending an event completes it, or is the reset that discards it, or is a host
access and leaves it pending. -/
theorem Took.pending_cases {s t : State} {e : Event} (h : Took s e t) (hb : s.busy = true) :
    (t.busy = false ∧ (e = .reset ∨ t.done = true)) ∨ (e ≠ .complete ∧ t.busy = true ∧ t.script = s.script) := by
  cases h with
  | idle hidle => exact absurd hb (by simp [hidle])
  | command i => exact .inl ⟨s.finish_busy _ _, .inr (s.finish_done _ _)⟩
  | illegal => exact .inl ⟨s.commitErr_busy _ _, .inr (s.commitErr_done _ _)⟩
  | read a => exact .inr ⟨nofun, (s.hostRead_busy a).trans hb, s.hostRead_script a⟩
  | write a v => exact .inr ⟨nofun, State.hostWrite_pending a v hb, s.hostWrite_script a v⟩
  | reset => exact .inl ⟨rfl, .inl rfl⟩

/-- An admitted event is not refused: the block has no fault (R64, R210). -/
theorem step_admitted {s : State} (h : s.nextEvent.admitted = true) : ∃ t, step s = .next t := by
  cases he : s.nextEvent with
  | memRead a w =>
    rw [he] at h
    obtain rfl : w = 1 := (widthOk_iff w).1 h
    exact ⟨_, step_memRead he⟩
  | memWrite a w v =>
    rw [he] at h
    obtain rfl : w = 1 := (widthOk_iff w).1 h
    exact ⟨_, step_memWrite he⟩
  | complete =>
    rw [step_complete he]
    cases hb : s.taken.busy with
    | false => exact ⟨_, engineTurn_idle hb⟩
    | true =>
      cases hd : decodeCmd s.taken.cmd with
      | ok i => exact ⟨_, (engineTurn_command hb hd).trans (exec_command _ (decodeCmd_isCommand hd))⟩
      | error e => exact ⟨_, engineTurn_illegal hb hd⟩
  | reset => exact ⟨_, step_reset he⟩
  | clash => rw [he] at h; cases h

theorem run_one {s t : State} (h : step s = .next t) : run 1 s = .next t := run_next 0 h

/-- The run that the bound speaks of, by induction on the script: its end leaves the engine's turn, and each
event before that ends the pending command or leaves the rest of the script to do so. -/
theorem run_completes (script : List Event) {s : State} (hscript : s.script = script) (hb : s.busy = true)
    (hadm : ∀ e ∈ script, e.admitted = true) :
    ∃ k t, 1 ≤ k ∧ k ≤ script.length + 1 ∧ run k s = .next t ∧ t.busy = false ∧
      (Event.reset ∉ script → t.done = true) := by
  induction script generalizing s with
  | nil =>
    have he : s.nextEvent = .complete := by simp [State.nextEvent, hscript]
    obtain ⟨t, ht⟩ := step_admitted (s := s) (by rw [he]; rfl)
    obtain ⟨htb, hdone⟩ | ⟨hne, -⟩ := (step_took ht).pending_cases hb
    · exact ⟨1, t, Nat.le_refl 1, Nat.le_refl 1, run_one ht, htb, fun _ => hdone.resolve_left (by simp [he])⟩
    · exact absurd he hne
  | cons e rest ih =>
    have he : s.nextEvent = e := State.nextEvent_cons hscript
    obtain ⟨t, ht⟩ := step_admitted (he.symm ▸ hadm e List.mem_cons_self)
    obtain ⟨htb, hdone⟩ | ⟨-, htb, hts⟩ := (step_took ht).pending_cases hb
    · refine ⟨1, t, Nat.le_refl 1, by simp, run_one ht, htb, fun hreset => hdone.resolve_left fun h => hreset ?_⟩
      rw [← he, h]
      exact List.mem_cons_self
    · have htail : t.script = rest := by rw [hts, State.taken_script, hscript, List.tail_cons]
      obtain ⟨k, u, -, hk, hrun, hub, hdone⟩ := ih htail htb fun e he => hadm e (List.mem_cons_of_mem _ he)
      exact ⟨k + 1, u, by omega, by simp only [List.length_cons]; omega, (run_next k ht).trans hrun, hub,
        fun hreset => hdone fun h => hreset (List.mem_cons_of_mem _ h)⟩

/-- Settles O52, by induction on the script. -/
theorem pendingCommandCompletes : Obligations.PendingCommandCompletes :=
  fun s hb hadm => run_completes s.script rfl hb hadm

end Sys2Proof.Machine
end

section
/-! PROOFS of the statements about memory and host accesses: which steps are refused, what a command reads and
what it leaves unchanged, the effect of a host write while idle and while busy, and what every step keeps of the
committed outputs and of the list of written bytes. -/
namespace Sys2Proof.Machine

/-! ### The list of written bytes -/

@[simp] theorem State.hostRead_mem (s : State) (a : Byte) : (s.hostRead a).mem = s.mem := by
  obtain ⟨b, e⟩ | ⟨-, b, e⟩ := s.hostRead_cases a <;> simp [e]

theorem Took.memCanonical {s t : State} {e : Event} (h : Took s e t) (hs : s.memCanonical) : t.memCanonical := by
  cases h with
  | idle => exact hs
  | command i => exact State.finish_wf _ _ hs
  | illegal => exact State.finish_wf false (.error .illegalCommand) hs
  | read a => exact (congrArg Memory.wf (s.hostRead_mem a)).trans hs
  | write a v => exact State.hostWrite_wf a v hs
  | reset => exact Memory.wf_nil

/-- Settles O56: a commit replaces the part of OUT, a write stores one byte of IN in its place, a reset empties
the list, and no other step touches it. -/
theorem memoryStaysCanonical : Obligations.MemoryStaysCanonical :=
  fun _ _ hs hstep => (step_took hstep).memCanonical hs

/-! ### Which steps are refused -/

theorem step_memRead_refused {s : State} {a : Byte} {w : Nat} (h : s.nextEvent = .memRead a w) (hw : w ≠ 1) :
    step s = .refused (.accessWidth w) := by
  simp [step, State.turn, h, widthOk, hw, Turn.outcome]

theorem step_memWrite_refused {s : State} {a v : Byte} {w : Nat} (h : s.nextEvent = .memWrite a w v) (hw : w ≠ 1) :
    step s = .refused (.accessWidth w) := by
  simp [step, State.turn, h, widthOk, hw, Turn.outcome]

theorem step_clash {s : State} (h : s.nextEvent = .clash) : step s = .refused .simultaneousAccess := by
  simp [step, State.turn, h, Turn.outcome]

/-- No event changes what is still scheduled after it (log 3, log 17). -/
theorem Took.script {s t : State} {e : Event} (h : Took s e t) : t.script = s.script := by
  cases h with
  | idle => rfl
  | command i => exact s.finish_script _ _
  | illegal => exact s.commitErr_script _ _
  | read a => exact s.hostRead_script a
  | write a v => exact s.hostWrite_script a v
  | reset => rfl

/-- Settles O5: the refusals by the equation of their event; an admitted event has a next state, whose script is
the rest. -/
theorem onlyRefusedAccessesStop : Obligations.OnlyRefusedAccessesStop := by
  refine fun s => ⟨fun _ _ => step_memRead_refused, fun _ _ _ => step_memWrite_refused, step_clash, fun h => ?_⟩
  obtain ⟨t, ht⟩ := step_admitted h
  exact ⟨t, ht, (step_took ht).script⟩

/-! ### The frame of the instructions -/

/-- What a command leaves unchanged, whatever its outcome is (R72, R210). -/
theorem State.finish_frame (s : State) (w : Bool) (o : CmdOutcome) :
    let t := s.finish w o
    t.cmd = s.cmd ∧ t.len = s.len ∧ t.arg0 = s.arg0 ∧ t.arg1 = s.arg1 ∧ t.crcAcc = s.crcAcc ∧ t.ie = s.ie ∧
      t.wign = s.wign ∧ t.readData = s.readData ∧ t.script = s.script ∧
      ∀ a, a < 0x80 → t.byteAt a = s.byteAt a :=
  ⟨s.finish_cmd w o, s.finish_len w o, s.finish_arg0 w o, s.finish_arg1 w o, s.finish_crcAcc w o, s.finish_ie w o,
    s.finish_wign w o, s.finish_readData w o, s.finish_script w o, fun _ => s.finish_byteAt_in w o⟩

/-- CRC_DATA writes CRC_ACC or WIGN alone (R136). -/
theorem State.streamCrc_frame (s : State) (b : Byte) :
    s.streamCrc b = { s with crcAcc := (s.streamCrc b).crcAcc, wign := (s.streamCrc b).wign } := by
  unfold State.streamCrc
  split_ifs <;> rfl

theorem State.streamCrc_byteAt (s : State) (b : Byte) (a : Nat) : (s.streamCrc b).byteAt a = s.byteAt a := by
  rw [s.streamCrc_frame]
  rfl

/-- Settles O36: a command is one commit of its outcome, and CRC_DATA is one write. -/
theorem instructionsFrame : Obligations.InstructionsFrame := by
  refine ⟨fun i s t hi h => ?_, fun i s t hi hout h => ?_, fun b s t h => ?_⟩
  · cases (exec_command s hi).symm.trans h
    exact s.finish_frame _ _
  · cases (exec_command s hi).symm.trans h
    rw [hout]
    exact ⟨s.finish_false_byteAt _, s.finish_draws false _⟩
  · cases (exec_crcData b s).symm.trans h
    exact ⟨s.streamCrc_frame b, s.streamCrc_byteAt b, fun hb => by simp [hb], fun hb => by simp [hb]⟩

/-! ### What a command reads -/

theorem State.inBytes_congr {s s' : State} {n : Nat} (h : ∀ k, k < n → s.inByte k = s'.inByte k) :
    s.inBytes n = s'.inBytes n :=
  List.map_congr_left fun k hk => h k (List.mem_range.1 hk)

/-- The span depends on LEN and, where it is no BadLength, on IN[0 .. LEN-1] (R98). -/
theorem State.span_congr {s s' : State} (hlen : s.len = s'.len)
    (hin : s.len.toNat ≤ 64 → ∀ k, k < s.len.toNat → s.inByte k = s'.inByte k) : s.span = s'.span := by
  by_cases h : s.len.toNat ≤ 64
  · rw [State.span_ok h, State.span_ok (hlen ▸ h), ← hlen, State.inBytes_congr (hin h)]
  · rw [State.span_badLength (Nat.not_le.1 h), State.span_badLength (hlen ▸ Nat.not_le.1 h)]

theorem State.overSpan_congr {s s' : State} (h : s.span = s'.span) (f : List Byte → CmdOutcome) :
    s.overSpan f = s'.overSpan f := by
  unfold State.overSpan
  rw [h]

/-- The mask 0xFF keeps ARG0 whole. -/
theorem eq_of_and_allBits {a b : Byte} (h : a &&& 0xFF#8 = b &&& 0xFF#8) : a = b := by
  have hones : (0xFF#8 : Byte) = BitVec.allOnes 8 := rfl
  rwa [hones, BitVec.and_allOnes, BitVec.and_allOnes] at h

/-- The mask 0x03 keeps ARG0[1:0]. -/
theorem extractLow_and_three (a : Byte) : (a &&& 0x03#8).extractLsb' 0 2 = a.extractLsb' 0 2 := by
  revert a; decide

theorem extractLow_eq_of_and {a b : Byte} (h : a &&& 0x03#8 = b &&& 0x03#8) :
    a.extractLsb' 0 2 = b.extractLsb' 0 2 := by
  rw [← extractLow_and_three a, h, extractLow_and_three]

/-- R72, R91: the operands that a command's rule names fix its outcome. -/
theorem State.outcome_congr {s s' : State} (i : Instr) (hspan : i.readsSpan = true → s.span = s'.span)
    (harg0 : s.arg0 &&& i.arg0Mask = s'.arg0 &&& i.arg0Mask) (harg1 : i.readsArg1 = true → s.arg1 = s'.arg1) :
    s.outcome i = s'.outcome i := by
  cases i with
  | crc8 | pop4 | stuffEnc | frameAsm | frameDis => exact State.overSpan_congr (hspan rfl) _
  | crc8Chk =>
    have h0 : s.arg0 = s'.arg0 := eq_of_and_allBits harg0
    simp only [State.outcome, State.expectedCrc, h0, State.overSpan_congr (hspan rfl)]
  | pop4Chk =>
    have h0 : s.expectedPop4 = s'.expectedPop4 := extractLow_eq_of_and harg0
    simp only [State.outcome, h0, State.overSpan_congr (hspan rfl)]
  | pop4b => simp only [State.outcome, State.singleByte, harg1 rfl]
  | pop4bChk =>
    have h0 : s.expectedPop4 = s'.expectedPop4 := extractLow_eq_of_and harg0
    simp only [State.outcome, State.singleByte, h0, harg1 rfl]
  | stuffDec =>
    have h0 : s.arg0 = s'.arg0 := eq_of_and_allBits harg0
    simp only [State.outcome, State.stuffIndex, h0, State.overSpan_congr (hspan rfl)]
  | crcData _ => rfl

/-- A byte that a success gives stands in OUT. -/
theorem State.commitOk_outByte (s : State) (r : CmdOk) {k : Nat} (hk : k < r.bytes.length) (hlen : r.bytes.length ≤ 128) :
    (s.commitOk true r).outByte k = r.bytes[k] := by
  have htake : r.bytes.take Config.outSize = r.bytes := List.take_of_length_le hlen
  exact (s.fillOut_outByte r.bytes k).trans (by rw [htake, List.getElem?_eq_getElem hk, Option.getD_some])

/-- Two states that commit the same outcome get the same registers, and the same bytes below OUT_LEN. -/
theorem State.finish_sameOutcome (s s' : State) (w : Bool) {o : CmdOutcome} (hbytes : ∀ r, o = .ok r → r.bytes.length ≤ 65) :
    let t := s.finish w o
    let t' := s'.finish w o
    t.errcode = t'.errcode ∧ t.result = t'.result ∧ t.outLen = t'.outLen ∧ t.chkOk = t'.chkOk ∧
      (w = true → ∀ k, k < t.outLen.toNat → t.outByte k = t'.outByte k) := by
  cases o with
  | ok r =>
    have hlen : r.bytes.length ≤ 65 := hbytes r rfl
    simp only [State.finish_ok, State.commitOk_errcode, State.commitOk_result, State.commitOk_outLen,
      State.commitOk_chkOk, true_and]
    rintro rfl k hk
    have hk' : k < r.bytes.length := hk.trans_le (by simpa using Nat.mod_le _ _)
    rw [s.commitOk_outByte r hk' (by omega), s'.commitOk_outByte r hk' (by omega)]
  | error e => simp [State.finish_error]

/-- Settles O39: the operands fix the outcome, and the outcome fixes what the commit leaves. -/
theorem commandsReadOnlyTheirOperands : Obligations.CommandsReadOnlyTheirOperands := by
  intro i s s' t t' hi h h' hspan harg0 harg1
  have houtcome : s.outcome i = s'.outcome i :=
    State.outcome_congr i (fun hr => State.span_congr (hspan hr).1 (hspan hr).2) harg0 harg1
  cases (exec_command s hi).symm.trans h
  cases (exec_command s' hi).symm.trans h'
  rw [← houtcome]
  exact s.finish_sameOutcome s' i.byteOutput fun r => State.outcome_bytes_length

/-! ### Host writes -/

/-- R67 on the registers and the reserved offsets, location by location. -/
theorem State.writeIdle_eq {s : State} (v : Byte) {l : Loc} (hb : s.busy = false) (hin : ∀ i, l ≠ .inBuf i) :
    s.writeIdle v l =
      if l = .cmd then { s with cmd := v, done := false, busy := true }
      else if l = .status then { s with done := s.done && !v.getLsbD 1, wign := s.wign && !v.getLsbD 3 }
      else if l = .ctrl then { s with ie := v.getLsbD 0 }
      else if l = .len then { s with len := v }
      else if l = .arg0 then { s with arg0 := v }
      else if l = .arg1 then { s with arg1 := v }
      else if l = .crcAcc then { s with crcAcc := v }
      else if l = .crcData then { s with crcAcc := crcUpdate s.crcAcc v }
      else s := by
  cases l with
  | inBuf i => exact absurd rfl (hin i)
  | crcData => simp [State.writeIdle, State.streamCrc, hb]
  | _ => rfl

/-- A write to IN while BUSY = 0 changes the list of written bytes alone. -/
theorem State.writeIdle_inBuf (s : State) (v : Byte) (i : Nat) :
    s.writeIdle v (.inBuf i) = { s with mem := (s.writeIdle v (.inBuf i)).mem } := rfl

/-- Settles O41: the table of R67 by location, and in IN the byte written and no other. -/
theorem writesWhileIdle : Obligations.WritesWhileIdle := by
  intro s a v rest hb hs
  have hidle : s.taken.busy = false := hb
  rw [step_memWrite (State.nextEvent_cons hs)]
  refine ⟨fun hreg => ?registers, fun hge hlt => ⟨_, rfl, ?inBuf, fun x => ?bytes⟩⟩
  case registers =>
    have hin (i : Nat) : locOf a ≠ .inBuf i := fun h => by have := locOf_inBuf h; omega
    rw [State.hostWrite_idle a v hidle, State.writeIdle_eq v hidle hin, State.taken_cons hs]
    simp only [locOf_eq_cmd, locOf_eq_status, locOf_eq_ctrl, locOf_eq_len, locOf_eq_arg0, locOf_eq_arg1,
      locOf_eq_crcAcc, locOf_eq_crcData]
  case inBuf =>
    rw [State.hostWrite_idle a v hidle, locOf_of_in hge hlt, State.taken_cons hs]
    exact State.writeIdle_inBuf _ v _
  case bytes =>
    rw [State.hostWrite_byteAt]
    by_cases hx : x = a.toNat
    · rw [if_pos ⟨hidle, hx.symm, by omega⟩, if_pos hx]
    · rw [if_neg fun h => hx h.2.1.symm, if_neg hx]
      rfl

/-- R68, location by location. -/
theorem State.writeBusy_eq {s : State} (v : Byte) (l : Loc) (hb : s.busy = true) :
    s.writeBusy v l =
      if l.locked = true then { s with wign := true }
      else if l = .status then { s with done := s.done && !v.getLsbD 1, wign := s.wign && !v.getLsbD 3 }
      else if l = .ctrl then { s with ie := v.getLsbD 0 }
      else s := by
  cases l with
  | crcData => simp [State.writeBusy, State.streamCrc, State.writeIgnored, Loc.locked, hb]
  | _ => rfl

theorem lockedOffset_iff (a : Byte) :
    lockedOffset a = true ↔
      a ∈ [0x00#8, 0x04#8, 0x05#8, 0x06#8, 0x09#8, 0x0A#8] ∨ (0x40 ≤ a.toNat ∧ a.toNat < 0x80) := by
  simp [lockedOffset, or_assoc]

/-- Settles O42: R68 by location. -/
theorem writesWhileBusy : Obligations.WritesWhileBusy := by
  intro s a v rest hb hs
  have hpending : s.taken.busy = true := hb
  rw [step_memWrite (State.nextEvent_cons hs), State.hostWrite_busy a v hpending, State.writeBusy_eq v _ hpending,
    State.taken_cons hs]
  simp only [locked_locOf, lockedOffset_iff, locOf_eq_status, locOf_eq_ctrl]

/-! ### Committed outputs -/

theorem State.sameOutputs_refl (s : State) : s.sameOutputs s := ⟨rfl, rfl, rfl, rfl, fun _ _ => rfl⟩

theorem State.hostRead_sameOutputs (s : State) (a : Byte) : s.sameOutputs (s.hostRead a) := by
  obtain ⟨b, e⟩ | ⟨-, b, e⟩ := s.hostRead_cases a <;> rw [e] <;> exact s.sameOutputs_refl

/-- R67: no row of the table writes an output register. -/
theorem State.writeIdle_outputRegisters (s : State) (v : Byte) (l : Loc) :
    (s.writeIdle v l).errcode = s.errcode ∧ (s.writeIdle v l).result = s.result ∧
      (s.writeIdle v l).outLen = s.outLen ∧ (s.writeIdle v l).chkOk = s.chkOk := by
  cases l <;> simp [State.writeIdle]

theorem State.hostWrite_outByte (s : State) (a v : Byte) (i : Nat) : (s.hostWrite a v).outByte i = s.outByte i := by
  unfold State.outByte
  rw [s.hostWrite_byteAt, if_neg (by simp only [outStart]; omega)]

theorem State.hostWrite_sameOutputs {s : State} (a v : Byte) (hb : s.busy = false) : s.sameOutputs (s.hostWrite a v) := by
  obtain ⟨herr, hres, hlen, hchk⟩ := s.writeIdle_outputRegisters v (locOf a)
  rw [← State.hostWrite_idle a v hb] at herr hres hlen hchk
  exact ⟨herr, hres, hlen, hchk, fun i _ => s.hostWrite_outByte a v i⟩

/-- R43: only a write to CMD issues. -/
theorem State.hostWrite_idle_busy {s : State} {a : Byte} (v : Byte) (hb : s.busy = false) (ha : a ≠ 0x00#8) :
    (s.hostWrite a v).busy = false := by
  rw [State.hostWrite_idle a v hb]
  cases hl : locOf a with
  | cmd => exact absurd ((locOf_eq_cmd a).1 hl) ha
  | _ => simp [State.writeIdle, hb]

theorem Took.outputs_stable {s t : State} {e : Event} (h : Took s e t) (hb : s.busy = false) (hr : e ≠ .reset)
    (hissue : ∀ w v, e ≠ .memWrite 0x00#8 w v) : s.sameOutputs t ∧ t.busy = false := by
  cases h with
  | idle => exact ⟨s.sameOutputs_refl, hb⟩
  | command i hpending => exact absurd hpending (by simp [hb])
  | illegal hpending => exact absurd hpending (by simp [hb])
  | read a => exact ⟨s.hostRead_sameOutputs a, (s.hostRead_busy a).trans hb⟩
  | write a v =>
    have ha : a ≠ 0x00#8 := by
      rintro rfl
      exact hissue 1 v rfl
    exact ⟨State.hostWrite_sameOutputs a v hb, State.hostWrite_idle_busy v hb ha⟩
  | reset => exact absurd rfl hr

/-- Settles O49: with nothing pending no step commits, and a write reaches no output. -/
theorem outputsStableUntilIssueOrReset : Obligations.OutputsStableUntilIssueOrReset :=
  fun _ _ hb hr hissue hstep => (step_took hstep).outputs_stable hb hr hissue

/-! ### Reserved offsets -/

theorem State.hostRead_reserved {s : State} {a : Byte} (h : locOf a = .reserved) : s.hostRead a = s.answer 0x00#8 := by
  rw [State.hostRead_stored (by rw [h]; rfl), h]
  rfl

theorem State.hostWrite_reserved {s : State} {a : Byte} (v : Byte) (h : locOf a = .reserved) : s.hostWrite a v = s := by
  unfold State.hostWrite
  rw [h]
  split_ifs <;> rfl

/-- Settles O43: a reserved offset reads 0x00 and ignores a write, in both values of BUSY. -/
theorem reservedOffsetsReadZero : Obligations.ReservedOffsetsReadZero := by
  intro s a v rest hge hle
  have hloc : locOf a = .reserved := locOf_of_reserved hge (by omega)
  refine ⟨fun hs => ?_, fun hs => ?_⟩
  · rw [step_memRead (State.nextEvent_cons hs), State.hostRead_reserved hloc, State.taken_cons hs]
    rfl
  · rw [step_memWrite (State.nextEvent_cons hs), State.hostWrite_reserved v hloc, State.taken_cons hs]

end Sys2Proof.Machine
end

section
/-! PROOFS of the statements about the encoding: which bytes decode to an instruction, which values of CMD are
illegal and what the machine does with them, and that a placed table word is what the next step runs. -/
namespace Sys2Proof.Machine

/-! ### The decoder accepts exactly what the encoder gives -/

theorem oneBusWrite (i : Instr) : Laws.OneBusWrite.Statement i :=
  match i with
  | .crc8 => Laws.OneBusWrite.crc8
  | .crc8Chk => Laws.OneBusWrite.crc8Chk
  | .pop4 => Laws.OneBusWrite.pop4
  | .pop4Chk => Laws.OneBusWrite.pop4Chk
  | .pop4b => Laws.OneBusWrite.pop4b
  | .pop4bChk => Laws.OneBusWrite.pop4bChk
  | .stuffEnc => Laws.OneBusWrite.stuffEnc
  | .stuffDec => Laws.OneBusWrite.stuffDec
  | .frameAsm => Laws.OneBusWrite.frameAsm
  | .frameDis => Laws.OneBusWrite.frameDis
  | .crcData data => Laws.OneBusWrite.crcData data

theorem decodeWrite_offsetOf_valueOf (i : Instr) : decodeWrite (offsetOf i) (valueOf i) = .ok i :=
  (oneBusWrite i).2.2

/-- A command's write goes to CMD (R90). -/
theorem offsetOf_command {i : Instr} (h : i.isCommand = true) : offsetOf i = cmdOffset := by
  cases i with
  | crcData _ => cases h
  | _ => rfl

theorem decodeCmd_valueOf {i : Instr} (h : i.isCommand = true) : decodeCmd (valueOf i) = .ok i := by
  have hw := decodeWrite_offsetOf_valueOf i
  rwa [decodeWrite, if_pos (offsetOf_command h)] at hw

/-- The opcode map gives an instruction for its own opcode only (R92). -/
theorem eq_valueOf_of_decodeCmd {op : Byte} {i : Instr} (h : decodeCmd op = .ok i) : op = valueOf i := by
  unfold decodeCmd at h
  split_ifs at h <;> cases h <;> assumption

theorem decodeRegWrite_eq_ok {a v : Byte} {i : Instr} (h : decodeRegWrite a v = .ok i) :
    a = crcDataOffset ∧ i = .crcData v := by
  unfold decodeRegWrite at h
  split_ifs at h with ha
  cases h
  exact ⟨ha, rfl⟩

/-- A host write is an instruction exactly when it is that instruction's offset and value. -/
theorem decodeWrite_eq_ok_iff {a v : Byte} {i : Instr} :
    decodeWrite a v = .ok i ↔ a = offsetOf i ∧ v = valueOf i := by
  refine ⟨fun h => ?_, fun ⟨ha, hv⟩ => ha ▸ hv ▸ decodeWrite_offsetOf_valueOf i⟩
  unfold decodeWrite at h
  split_ifs at h with ha
  · exact ⟨ha.trans (offsetOf_command (decodeCmd_isCommand h)).symm, eq_valueOf_of_decodeCmd h⟩
  · obtain ⟨hoff, rfl⟩ := decodeRegWrite_eq_ok h
    exact ⟨hoff, rfl⟩

theorem decode_cons_cons_eq_ok_iff {a v : Byte} {tail rest : List Byte} {i : Instr} :
    decode (a :: v :: tail) = .ok (i, rest) ↔ decodeWrite a v = .ok i ∧ tail = rest := by
  cases h : decodeWrite a v <;> simp [decode, h]

/-- Settles O2: two bytes or more decode as their first two do as a write, and fewer decode to nothing. -/
theorem decodeInvertsEncode : Obligations.DecodeInvertsEncode := by
  intro bytes rest i
  match bytes with
  | [] | [_] => simp [decode, encode]
  | a :: v :: tail => simp [decode_cons_cons_eq_ok_iff, decodeWrite_eq_ok_iff, encode, and_assoc]

theorem decode_encode (i : Instr) : decode (encode i) = .ok (i, []) :=
  (decodeInvertsEncode (encode i) [] i).2 (List.append_nil _).symm

/-! ### A placed table word -/

theorem decodeTableWord_eq_some {nbits w : Nat} {i : Instr} (h : decodeTableWord nbits w = some i) :
    tableWrite nbits w = (offsetOf i, valueOf i) := by
  unfold decodeTableWord at h
  split at h
  case h_1 j rest hdec =>
    cases h
    obtain ⟨ha, hv⟩ := decodeWrite_eq_ok_iff.1 (decode_cons_cons_eq_ok_iff.1 hdec).1
    exact Prod.ext ha hv
  case h_2 => cases h

theorem State.place_cmd (s : State) (v : Byte) :
    s.place cmdOffset v = { s.issue v with script := .complete :: s.script } := if_pos rfl

theorem State.place_crcData (s : State) (v : Byte) :
    s.place crcDataOffset v = { s with script := .memWrite crcDataOffset 1 v :: s.script } := if_neg (by decide)

/-- The write of an instruction, once placed, is what the next step runs. -/
theorem step_place (s : State) (i : Instr) :
    step (s.place (offsetOf i) (valueOf i)) =
      exec i (if i.isCommand = true then { s with cmd := valueOf i, busy := true, done := false } else s) := by
  by_cases hi : i.isCommand = true
  · rw [if_pos hi, offsetOf_command hi, State.place_cmd, step_complete_cons rfl]
    exact engineTurn_command rfl (decodeCmd_valueOf hi)
  · cases i with
    | crcData b =>
      rw [if_neg hi, offsetOf, State.place_crcData, step_memWrite rfl, exec_crcData]
      exact congrArg Host.Outcome.next (s.hostWrite_crcData b)
    | _ => exact absurd rfl hi

/-- Settles O4: the word is the write of its instruction, and that write is placed. -/
theorem placedTableWordRunsNext : Obligations.PlacedTableWordRunsNext := by
  intro s nbits w i h
  rw [State.withFetchWord, decodeTableWord_eq_some h]
  exact step_place s i

/-! ### Illegal opcodes -/

/-- The ten opcodes of R92. -/
def opcodes : List Byte :=
  [0x01#8, 0x02#8, 0x03#8, 0x04#8, 0x05#8, 0x06#8, 0x10#8, 0x11#8, 0x20#8, 0x21#8]

theorem valueOf_mem_opcodes {i : Instr} (h : i.isCommand = true) : valueOf i ∈ opcodes := by
  cases i with
  | crcData _ => cases h
  | _ => decide

theorem decodeCmd_illegal {op : Byte} (h : op ∉ opcodes) : decodeCmd op = .error (.illegalCommand op) := by
  cases hd : decodeCmd op with
  | ok i => exact absurd (eq_valueOf_of_decodeCmd hd ▸ valueOf_mem_opcodes (decodeCmd_isCommand hd)) h
  | error e => rw [decodeCmd_error hd]

/-- The illegal values in the ranges of R93. -/
theorem not_mem_opcodes_iff (op : Byte) :
    op ∉ opcodes ↔
      op.toNat = 0 ∨ (0x07 ≤ op.toNat ∧ op.toNat ≤ 0x0F) ∨ (0x12 ≤ op.toNat ∧ op.toNat ≤ 0x1F) ∨
        0x22 ≤ op.toNat := by
  revert op; decide

/-- Settles O40: the issue looks at no opcode, and at completion none of R92's is found. -/
theorem illegalOpcodesComplete : Obligations.IllegalOpcodesComplete := by
  refine fun s op hop => ⟨fun rest hb hs => ?issue, fun rest hb hcmd hs => ?completion⟩
  case issue =>
    have hidle : s.taken.busy = false := hb
    have hloc : locOf 0x00#8 = .cmd := rfl
    rw [step_memWrite (State.nextEvent_cons hs), State.hostWrite_idle _ _ hidle, hloc, State.taken_cons hs]
    rfl
  case completion =>
    subst hcmd
    rw [step_complete_cons hs]
    exact engineTurn_illegal hb (decodeCmd_illegal ((not_mem_opcodes_iff _).2 hop))

/-- Settles O1: each opcode is the value that its command encodes to, and no command has another. -/
theorem instructionWordsDecode : Obligations.InstructionWordsDecode :=
  ⟨decode_encode .crc8, decode_encode .crc8Chk, decode_encode .pop4, decode_encode .pop4Chk, decode_encode .pop4b,
    decode_encode .pop4bChk, decode_encode .stuffEnc, decode_encode .stuffDec, decode_encode .frameAsm,
    decode_encode .frameDis, decode_encode (.crcData 0x5C#8), fun _ => decodeCmd_illegal⟩

end Sys2Proof.Machine
end

section
/-! PROOFS of the statements about the checksums: the functions `crcUpdate`, `crc8`, `pop4` and `pop4s`, the whole next
state of each checksum command, and the streaming of a span through CRC_DATA. -/
namespace Sys2Proof.Machine

/-! ### One turn of the CRC loop -/

/-- The turn of R120's loop, said on natural numbers. -/
def crcTurn (v : Nat) : Nat := if v / 128 = 1 then (v * 2 % 256) ^^^ 7 else v * 2 % 256

theorem byte_bit7 (v : Byte) : v.getLsbD 7 = true ↔ v.toNat / 128 = 1 := by
  have hmsb : v.getLsbD 7 = v.msb := rfl
  rw [hmsb, BitVec.msb_eq_decide, decide_eq_true_eq]
  omega

theorem byte_shiftLeft_one_toNat (v : Byte) : (v <<< 1).toNat = v.toNat * 2 % 256 := by
  rw [BitVec.toNat_shiftLeft, Nat.shiftLeft_eq, Nat.pow_one]

theorem crcShift_toNat (v : Byte) : (crcShift v).toNat = crcTurn v.toNat := by
  unfold crcShift crcTurn
  simp only [byte_bit7]
  split_ifs
  · rw [BitVec.toNat_xor, byte_shiftLeft_one_toNat]
    rfl
  · exact byte_shiftLeft_one_toNat v

theorem crcUpdate_eq_iterate (c b : Byte) : crcUpdate c b = crcShift^[8] (c ^^^ b) := rfl

/-- Settles O6: each turn on a byte is the rule's turn on its number, and so are eight of them. -/
theorem crcUpdateIsTheLoop : Obligations.CrcUpdateIsTheLoop := by
  intro c b
  have hturns : Function.Semiconj BitVec.toNat crcShift^[8] crcTurn^[8] :=
    Function.Semiconj.iterate_right crcShift_toNat 8
  rw [crcUpdate_eq_iterate, hturns.eq, BitVec.toNat_xor]
  rfl

/-! ### The laws of crc8 -/

/-- A turn loses no set bit: bit 7, where it is shifted out, comes back as bit 0 of the polynomial. -/
theorem crcShift_eq_zero {v : Byte} (h : crcShift v = 0#8) : v = 0#8 := by
  revert v; decide

theorem crcShift_injective : Function.Injective crcShift := by
  intro a b h
  have hxor : crcShift (a ^^^ b) = 0#8 := by rw [crcShift_xor, h, BitVec.xor_self]
  exact BitVec.xor_eq_zero_iff.1 (crcShift_eq_zero hxor)

theorem crcShift_surjective : Function.Surjective crcShift :=
  Finite.surjective_of_injective crcShift_injective

theorem crc8_singleton (b : Byte) : crc8 [b] = crcShift^[8] b := by
  calc crc8 [b] = crcShift^[8] (0#8 ^^^ b) := crcUpdate_eq_iterate 0#8 b
    _ = crcShift^[8] b := by rw [BitVec.zero_xor]

/-- The fold is linear in the register and the bytes together. -/
theorem foldl_crcUpdate_xor {s t : List Byte} (h : s.length = t.length) (c d : Byte) :
    (s.zipWith (· ^^^ ·) t).foldl crcUpdate (c ^^^ d) = s.foldl crcUpdate c ^^^ t.foldl crcUpdate d := by
  induction s generalizing t c d with
  | nil =>
    obtain rfl := List.eq_nil_of_length_eq_zero h.symm
    rfl
  | cons a s ih =>
    cases t with
    | nil => cases h
    | cons b t =>
      rw [List.zipWith_cons_cons, List.foldl_cons, crcUpdate_xor]
      exact ih (Nat.succ.inj h) _ _

theorem crc8_append_self (s : List Byte) : crc8 (s ++ [crc8 s]) = 0x00#8 :=
  (crc8_append s [crc8 s]).trans (crcUpdate_self (crc8 s))

theorem crc8_xor {s t : List Byte} (h : s.length = t.length) :
    crc8 (s.zipWith (· ^^^ ·) t) = crc8 s ^^^ crc8 t :=
  foldl_crcUpdate_xor h Config.crcInit Config.crcInit

/-- Settles O7: the register is cleared by its own value, a turn is linear, and it is onto. -/
theorem crcLaws : Obligations.CrcLaws := by
  refine ⟨crc8_append, crc8_append_self, fun _ _ => crc8_xor, fun c => ?_, by decide, by decide⟩
  obtain ⟨b, hb⟩ := crcShift_surjective.iterate 8 c
  exact ⟨b, (crc8_singleton b).trans hb⟩

/-! ### Popcount modulo 4 -/

theorem popcount_eq_countP (b : Byte) : popcount b = (List.range 8).countP fun k => b.getLsbD k := by
  have hrange : List.range 8 = [0, 1, 2, 3, 4, 5, 6, 7] := rfl
  simp only [popcount, hrange, List.countP_cons, List.countP_nil, Bool.toNat, Bool.cond_eq_ite]
  ac_rfl

theorem pop4_toNat (b : Byte) : (pop4 b).toNat = popcount b % 4 := BitVec.toNat_ofNat _ _

theorem pop4s_toNat (s : List Byte) : (pop4s s).toNat = (s.map popcount).sum % 4 := BitVec.toNat_ofNat _ _

theorem pop4s_singleton (b : Byte) : pop4s [b] = pop4 b := rfl

theorem pop4s_append (s t : List Byte) : pop4s (s ++ t) = pop4s s + pop4s t := by
  unfold pop4s
  rw [List.map_append, List.sum_append, BitVec.ofNat_add]

/-- Settles O8: the popcount is the count of R124, and the sum modulo 4 is additive. -/
theorem popcountModFour : Obligations.PopcountModFour := by
  refine ⟨fun b => ?_, fun s => ?_, rfl, pop4s_singleton, pop4s_append⟩
  · rw [pop4_toNat, popcount_eq_countP]
  · rw [pop4s_toNat, funext popcount_eq_countP]

/-! ### What a checksum command commits -/

/-- The success of a checksum command: it writes no OUT (R130 to R135). -/
theorem State.finish_checksumOk (s : State) (result : Byte) (chk : Bool) :
    s.finish false (checksumOk result chk) = { s with
      errcode := 0x00#8, result := result, outLen := 0x00#8, chkOk := chk, busy := false, done := true } := rfl

theorem State.finish_badLength (s : State) :
    s.finish false (.error .badLength) = { s with
      errcode := 0x20#8, result := 0x00#8, outLen := 0x00#8, chkOk := false, busy := false, done := true } := rfl

/-- A checksum command over the span, on both sides of LEN = 64 (R98). -/
theorem exec_checksum_overSpan {i : Instr} {s : State} (result : List Byte → Byte) (chk : List Byte → Bool)
    (h : exec i s = .next (s.finish false (s.overSpan fun p => checksumOk (result p) (chk p)))) :
    (s.len.toNat ≤ 64 → exec i s = .next { s with
      errcode := 0x00#8, result := result (s.inBytes s.len.toNat), outLen := 0x00#8,
      chkOk := chk (s.inBytes s.len.toNat), busy := false, done := true }) ∧
    (64 < s.len.toNat → exec i s = .next { s with
      errcode := 0x20#8, result := 0x00#8, outLen := 0x00#8, chkOk := false, busy := false, done := true }) := by
  refine ⟨fun hlen => ?_, fun hlen => ?_⟩
  · rw [h, State.overSpan_ok _ hlen, State.finish_checksumOk]
  · rw [h, State.overSpan_badLength _ hlen, State.finish_badLength]

/-- RESULT of a popcount command: the two bits, with RESULT[7:2] = 0 (R132). -/
theorem pop4_setWidth (b : Byte) : (pop4 b).setWidth 8 = BitVec.ofNat 8 (popcount b % 4) := by
  rw [← BitVec.ofNat_toNat, pop4_toNat]

theorem pop4s_setWidth (p : List Byte) : (pop4s p).setWidth 8 = BitVec.ofNat 8 ((p.map popcount).sum % 4) := by
  rw [← BitVec.ofNat_toNat, pop4s_toNat]

theorem crcMatches_eq_decide (computed expected : Byte) :
    crcMatches computed expected = decide (computed = expected) := beq_eq_decide _ _

/-- Bits 7:2 of ARG0 are not compared (R133). -/
theorem State.expectedPop4_toNat (s : State) : s.expectedPop4.toNat = s.arg0.toNat % 4 := metaCheck_toNat s.arg0

theorem pop4Matches_expectedPop4 (s : State) (computed : BitVec 2) :
    pop4Matches computed s.expectedPop4 = decide (computed.toNat = s.arg0.toNat % 4) := by
  rw [← s.expectedPop4_toNat, pop4Matches, beq_eq_decide]
  exact decide_eq_decide.2 BitVec.toNat_inj.symm

/-! ### The checksum commands -/

/-- Settles O9: the CRC of the span, and no check. -/
theorem crc8Completes : Obligations.Crc8Completes :=
  fun s => exec_checksum_overSpan crc8 (fun _ => false) (exec_command s rfl)

/-- Settles O10: the CRC of the span, compared with ARG0. -/
theorem crc8ChkCompletes : Obligations.Crc8ChkCompletes := by
  refine fun s => exec_checksum_overSpan crc8 (fun p => decide (crc8 p = s.arg0)) ?_
  simp only [← crcMatches_eq_decide]
  exact exec_command s rfl

/-- Settles O11: the popcount of the span modulo 4, and no check. -/
theorem pop4Completes : Obligations.Pop4Completes := by
  refine fun s => exec_checksum_overSpan (fun p => BitVec.ofNat 8 ((p.map popcount).sum % 4)) (fun _ => false) ?_
  simp only [← pop4s_setWidth]
  exact exec_command s rfl

/-- Settles O12: the popcount of the span modulo 4, compared with ARG0 modulo 4. -/
theorem pop4ChkCompletes : Obligations.Pop4ChkCompletes := by
  refine fun s => exec_checksum_overSpan (fun p => BitVec.ofNat 8 ((p.map popcount).sum % 4))
    (fun p => decide ((p.map popcount).sum % 4 = s.arg0.toNat % 4)) ?_
  simp only [← pop4s_setWidth]
  simp only [← pop4s_toNat, ← pop4Matches_expectedPop4]
  exact exec_command s rfl

/-- Settles O13: the popcount of ARG1 modulo 4; no span is taken, so LEN is not checked. -/
theorem pop4bCompletes : Obligations.Pop4bCompletes := by
  intro s
  rw [← pop4_setWidth, ← State.finish_checksumOk]
  exact exec_command s rfl

/-- Settles O14: as O13, compared with ARG0 modulo 4. -/
theorem pop4bChkCompletes : Obligations.Pop4bChkCompletes := by
  intro s
  rw [← pop4_setWidth, ← pop4_toNat, ← pop4Matches_expectedPop4, ← State.finish_checksumOk]
  exact exec_command s rfl

/-! ### Streaming -/

theorem State.streamCrc_idle {s : State} (b : Byte) (hb : s.busy = false) :
    s.streamCrc b = { s with crcAcc := crcUpdate s.crcAcc b } := by simp [State.streamCrc, hb]

theorem State.streamCrc_ignored {s : State} (b : Byte) (hb : s.busy = true) :
    s.streamCrc b = { s with wign := true } := if_pos hb

/-- Settles O15: the write is the whole instruction. -/
theorem crcDataStreamsOneByte : Obligations.CrcDataStreamsOneByte := by
  refine fun s b => ⟨fun hb => ?_, fun hb => ?_⟩
  · rw [exec_crcData, State.streamCrc_idle b hb]
  · rw [exec_crcData, State.streamCrc_ignored b hb]

theorem step_crcData_idle {s : State} {b : Byte} {rest : List Event} (hb : s.busy = false)
    (hs : s.script = .memWrite 0x0A#8 1 b :: rest) :
    step s = .next { s with crcAcc := crcUpdate s.crcAcc b, script := rest } :=
  ((stepRunsDecodedInstruction.2 s b rest hs).2).trans ((crcDataStreamsOneByte _ b).1 hb)

/-- Streaming continues the fold from whatever CRC_ACC holds (R136). -/
theorem run_crcData_writes (bytes : List Byte) {s : State} {rest : List Event} (hb : s.busy = false)
    (hs : s.script = bytes.map (fun b => Event.memWrite 0x0A#8 1 b) ++ rest) :
    run bytes.length s = .next { s with crcAcc := bytes.foldl crcUpdate s.crcAcc, script := rest } := by
  induction bytes generalizing s with
  | nil =>
    obtain rfl : s.script = rest := hs
    rfl
  | cons b bytes ih => exact (run_next _ (step_crcData_idle hb hs)).trans (ih hb rfl)

/-- Settles O16: from 0x00 the fold is crc8, by R121. -/
theorem streamingEqualsCrc8 : Obligations.StreamingEqualsCrc8 := by
  intro s bytes rest hb hacc hs
  have hrun := run_crcData_writes bytes hb hs
  rwa [hacc] at hrun

end Sys2Proof.Machine
end

section
/-! PROOFS of the statements about stuffing. One notion carries them: a run (bytes other than 0xAA) and its block, the
code byte before it. The encoder turns the runs of a payload into blocks, the decoder turns blocks back into runs joined
by start bytes, and every input that the decoder does not refuse is a row of blocks. -/
namespace Sys2Proof.Machine

/-! ### Blocks -/

/-- A run behind its code byte (spec/41_stuffing.md R154). -/
def codeBlock (r : List Byte) : List Byte := BitVec.ofNat 8 (r.length + 1) :: r

/-- The blocks of a list of runs, in order. -/
def codeBlocks (runs : List (List Byte)) : List Byte := runs.flatMap codeBlock

@[simp] theorem codeBlocks_nil : codeBlocks [] = [] := rfl

@[simp] theorem codeBlocks_cons (r : List Byte) (runs : List (List Byte)) :
    codeBlocks (r :: runs) = codeBlock r ++ codeBlocks runs := List.flatMap_cons

@[simp] theorem codeBlock_length (r : List Byte) : (codeBlock r).length = r.length + 1 := rfl

theorem code_toNat {r : List Byte} (h : r.length ≤ 254) : (BitVec.ofNat 8 (r.length + 1)).toNat = r.length + 1 := by
  rw [BitVec.toNat_ofNat]
  omega

/-- Each block holds at least its code byte. -/
theorem length_le_codeBlocks_length (runs : List (List Byte)) : runs.length ≤ (codeBlocks runs).length := by
  induction runs with
  | nil => exact Nat.le_refl 0
  | cons r runs ih =>
    simp only [codeBlocks_cons, List.length_append, codeBlock_length, List.length_cons]
    omega

theorem length_le_codeBlocks_length_of_mem {r : List Byte} {runs : List (List Byte)} (h : r ∈ runs) :
    r.length + 1 ≤ (codeBlocks runs).length := by
  have hsub : (codeBlock r).Sublist (runs.map codeBlock).flatten :=
    List.sublist_flatten_of_mem (List.mem_map_of_mem h)
  exact hsub.length_le

theorem not_mem_of_not_mem_codeBlocks {b : Byte} {runs : List (List Byte)} (h : b ∉ codeBlocks runs) {r : List Byte}
    (hr : r ∈ runs) : b ∉ r :=
  fun hb => h (List.mem_flatMap.2 ⟨r, hr, List.mem_cons_of_mem _ hb⟩)

/-- No code byte of a run shorter than 169 bytes is a start byte (R154). -/
theorem startByte_not_mem_codeBlocks {runs : List (List Byte)} (h : ∀ r ∈ runs, 0xAA#8 ∉ r ∧ r.length < 169) :
    0xAA#8 ∉ codeBlocks runs := by
  intro hmem
  obtain ⟨r, hr, hb⟩ := List.mem_flatMap.1 hmem
  obtain ⟨hdata, hlen⟩ := h r hr
  rcases List.mem_cons.1 hb with hcode | hb
  · have hnat : (170 : Nat) = r.length + 1 := (congrArg BitVec.toNat hcode).trans (code_toNat (by omega))
    omega
  · exact hdata hb

/-- Every input is a row of blocks, up to the first block at fault (R155). -/
theorem exists_codeBlocks (q : List Byte) :
    ∃ runs : List (List Byte), (∀ r ∈ runs, r.length ≤ 254) ∧
      (q = codeBlocks runs ∨
        ∃ (c : Byte) (tail : List Byte), q = codeBlocks runs ++ c :: tail ∧ (c = 0x00#8 ∨ tail.length + 1 < c.toNat)) := by
  induction hn : q.length using Nat.strong_induction_on generalizing q with
  | _ n ih =>
  cases q with
  | nil => exact ⟨[], by simp, .inl rfl⟩
  | cons c rest =>
    by_cases hfault : c = 0x00#8 ∨ rest.length + 1 < c.toNat
    · exact ⟨[], by simp, .inr ⟨c, rest, rfl, hfault⟩⟩
    · obtain ⟨hzero, hfits⟩ := not_or.1 hfault
      have hpos : c.toNat ≠ 0 := fun e => hzero (BitVec.eq_of_toNat_eq e)
      have hlt := c.isLt
      have hlen : (rest.take (c.toNat - 1)).length = c.toNat - 1 := List.length_take_of_le (by omega)
      have hcode : codeBlock (rest.take (c.toNat - 1)) = c :: rest.take (c.toNat - 1) := by
        rw [codeBlock, hlen, Nat.sub_add_cancel (by omega), BitVec.ofNat_toNat, BitVec.setWidth_eq]
      have hsplit : c :: rest = codeBlock (rest.take (c.toNat - 1)) ++ rest.drop (c.toNat - 1) := by
        rw [hcode, List.cons_append, List.take_append_drop]
      obtain ⟨runs, hruns, hq⟩ := ih (rest.drop (c.toNat - 1)).length
        (by simp only [List.length_drop, List.length_cons] at hn ⊢; omega) _ rfl
      refine ⟨rest.take (c.toNat - 1) :: runs, List.forall_mem_cons.2 ⟨by omega, hruns⟩, ?_⟩
      rw [hsplit, codeBlocks_cons]
      rcases hq with hq | ⟨c', tail, hq, hfault'⟩
      · exact .inl (by rw [hq])
      · exact .inr ⟨c', tail, by rw [hq, List.append_assoc], hfault'⟩

/-! ### The runs of a payload -/

/-- A run holds no start byte and is no longer than the payload. -/
theorem mem_splitOn_startByte (p : List Byte) {r : List Byte} (h : r ∈ p.splitOn 0xAA#8) :
    0xAA#8 ∉ r ∧ r.length ≤ p.length := by
  induction hn : p.length using Nat.strong_induction_on generalizing p with
  | _ n ih =>
  by_cases hp : 0xAA#8 ∈ p
  · obtain ⟨first, rest, rfl, hfirst⟩ := List.eq_append_cons_of_mem hp
    rw [List.splitOn_append_cons_self_of_not_mem hfirst] at h
    simp only [List.length_append, List.length_cons] at hn
    rcases List.mem_cons.1 h with rfl | h
    · exact ⟨hfirst, by omega⟩
    · obtain ⟨hmem, hlen⟩ := ih rest.length (by omega) rest h rfl
      exact ⟨hmem, by omega⟩
  · rw [List.splitOn_eq_singleton hp] at h
    obtain rfl := List.mem_singleton.1 h
    exact ⟨hp, hn.le⟩

/-! ### The encoder, run by run -/

/-- The encoder's state after a run that it has not closed. -/
def openRun (r : List Byte) : Stuffer := { q := 0x00#8 :: r, ph := 0, code := r.length + 1, idx := 0 }

/-- The encoder's state with output and start bytes that earlier runs have left. -/
def Stuffer.after (t : Stuffer) (out : List Byte) (n : Nat) : Stuffer :=
  { q := out ++ t.q, ph := out.length + t.ph, code := t.code, idx := n + t.idx }

theorem emitCode_openRun (r : List Byte) : emitCode (openRun r) = codeBlock r := rfl

theorem emitCode_after (t : Stuffer) (out : List Byte) (n : Nat) :
    emitCode (t.after out n) = out ++ emitCode t := by
  simp [emitCode, Stuffer.after]

theorem closeRun_after (t : Stuffer) (out : List Byte) (n : Nat) :
    closeRun (t.after out n) = (closeRun t).after out n := by
  unfold closeRun
  rw [emitCode_after]
  simp [Stuffer.after]

/-- What earlier runs have left has no part in a turn of the loop. -/
theorem stuffStep_after (t : Stuffer) (out : List Byte) (n : Nat) (b : Byte) :
    stuffStep (t.after out n) b = (stuffStep t b).after out n := by
  by_cases hb : b = Config.startByte
  · rw [hb, stuffStep_startByte, stuffStep_startByte, closeRun_after]
    rfl
  · by_cases hc : t.code + 1 = Config.flushCode
    · rw [stuffStep_flush hb hc, stuffStep_flush (t := t.after out n) hb hc, ← closeRun_after]
      simp [Stuffer.after]
    · rw [stuffStep_data hb hc, stuffStep_data (t := t.after out n) hb hc]
      simp [Stuffer.after]

theorem foldl_stuffStep_after (p : List Byte) (t : Stuffer) (out : List Byte) (n : Nat) :
    p.foldl stuffStep (t.after out n) = (p.foldl stuffStep t).after out n :=
  List.foldl_hom (fun t : Stuffer => t.after out n) fun t b => stuffStep_after t out n b

theorem stuffEncode_eq (p : List Byte) :
    stuffEncode p = (emitCode (p.foldl stuffStep stufferInit), (p.foldl stuffStep stufferInit).idx) := rfl

/-- The encoding of what follows closed runs stands behind their output. -/
theorem stuffEncode_append {p r : List Byte} {out : List Byte} {n : Nat}
    (h : r.foldl stuffStep stufferInit = stufferInit.after out n) :
    stuffEncode (r ++ p) = (out ++ (stuffEncode p).1, (stuffEncode p).2 + n) := by
  rw [stuffEncode_eq, stuffEncode_eq, List.foldl_append, h, foldl_stuffStep_after, emitCode_after, Nat.add_comm]
  rfl

theorem stuffStep_openRun_data {r : List Byte} {b : Byte} (hb : b ≠ 0xAA#8) (hlen : r.length < 253) :
    stuffStep (openRun r) b = openRun (r ++ [b]) := by
  have hcode : (openRun r).code + 1 ≠ Config.flushCode := by simp only [openRun, Config.flushCode]; omega
  rw [stuffStep_data hb hcode]
  simp [openRun]

theorem stuffStep_openRun_startByte (r : List Byte) :
    stuffStep (openRun r) 0xAA#8 = stufferInit.after (codeBlock r) 1 := stuffStep_startByte (openRun r)

/-- The run of 254 bytes is closed with no start byte (spec/90_conflicts.md C5). -/
theorem stuffStep_openRun_flush {r : List Byte} {b : Byte} (hb : b ≠ 0xAA#8) (hlen : r.length = 253) :
    stuffStep (openRun r) b = stufferInit.after (codeBlock (r ++ [b])) 0 := by
  have hcode : (openRun r).code + 1 = Config.flushCode := by simp only [openRun, Config.flushCode]; omega
  rw [stuffStep_flush hb hcode]
  simp [openRun, closeRun, emitCode, Stuffer.after, stufferInit, codeBlock]

theorem foldl_stuffStep_run {r : List Byte} (hr : 0xAA#8 ∉ r) (hlen : r.length ≤ 253) :
    r.foldl stuffStep stufferInit = openRun r := by
  induction r using List.reverseRecOn with
  | nil => rfl
  | append_singleton r b ih =>
    rw [List.length_append, List.length_singleton] at hlen
    obtain ⟨hmem, hb⟩ := not_or.1 (mt List.mem_append.2 hr)
    rw [List.foldl_append, ih hmem (by omega)]
    exact stuffStep_openRun_data (fun e => hb (List.mem_singleton.2 e.symm)) (by omega)

theorem foldl_stuffStep_run_startByte {r : List Byte} (hr : 0xAA#8 ∉ r) (hlen : r.length ≤ 253) :
    (r ++ [0xAA#8]).foldl stuffStep stufferInit = stufferInit.after (codeBlock r) 1 := by
  rw [List.foldl_append, foldl_stuffStep_run hr hlen]
  exact stuffStep_openRun_startByte r

theorem foldl_stuffStep_run_flush {r : List Byte} (hr : 0xAA#8 ∉ r) (hlen : r.length = 254) :
    r.foldl stuffStep stufferInit = stufferInit.after (codeBlock r) 0 := by
  cases r using List.reverseRecOn with
  | nil => cases hlen
  | append_singleton run b =>
    rw [List.length_append, List.length_singleton] at hlen
    obtain ⟨hmem, hb⟩ := not_or.1 (mt List.mem_append.2 hr)
    rw [List.foldl_append, foldl_stuffStep_run hmem (by omega)]
    exact stuffStep_openRun_flush (fun e => hb (List.mem_singleton.2 e.symm)) (by omega)

theorem stuffEncode_lastRun {r : List Byte} (hr : 0xAA#8 ∉ r) (hlen : r.length ≤ 253) :
    stuffEncode r = (codeBlock r, 0) := by
  rw [stuffEncode_eq, foldl_stuffStep_run hr hlen, emitCode_openRun]
  rfl

theorem stuffEncode_run_startByte {r : List Byte} (rest : List Byte) (hr : 0xAA#8 ∉ r) (hlen : r.length ≤ 253) :
    stuffEncode (r ++ 0xAA#8 :: rest) = (codeBlock r ++ (stuffEncode rest).1, (stuffEncode rest).2 + 1) := by
  rw [List.append_cons, stuffEncode_append (foldl_stuffStep_run_startByte hr hlen)]

theorem stuffEncode_run_flush {r : List Byte} (rest : List Byte) (hr : 0xAA#8 ∉ r) (hlen : r.length = 254) :
    stuffEncode (r ++ rest) = (0xFF#8 :: r ++ (stuffEncode rest).1, (stuffEncode rest).2) := by
  have hblock : codeBlock r = 0xFF#8 :: r := by rw [codeBlock, hlen]
  rw [stuffEncode_append (foldl_stuffStep_run_flush hr hlen), hblock, Nat.add_zero]

/-- Settles O17: a run is held open, then closed by the end, by a start byte or by its 254th byte. -/
theorem stuffEncodeByRuns : Obligations.StuffEncodeByRuns :=
  ⟨fun _ hr => stuffEncode_lastRun (List.count_eq_zero.1 hr),
    fun _ rest hr => stuffEncode_run_startByte rest (List.count_eq_zero.1 hr),
    fun _ rest hr => stuffEncode_run_flush rest (List.count_eq_zero.1 hr)⟩

/-- The encoding of runs joined by start bytes is their blocks. -/
theorem stuffEncode_intercalate {runs : List (List Byte)} (hne : runs ≠ [])
    (h : ∀ r ∈ runs, 0xAA#8 ∉ r ∧ r.length ≤ 253) :
    stuffEncode ([0xAA#8].intercalate runs) = (codeBlocks runs, runs.length - 1) := by
  induction runs with
  | nil => exact absurd rfl hne
  | cons r runs ih =>
    obtain ⟨⟨hr, hlen⟩, hruns⟩ := List.forall_mem_cons.1 h
    cases runs with
    | nil => simp [stuffEncode_lastRun hr hlen]
    | cons r' runs =>
      rw [List.intercalate_cons_cons, List.append_assoc, List.singleton_append, stuffEncode_run_startByte _ hr hlen,
        ih (List.cons_ne_nil r' runs) hruns]
      rfl

/-- The encoding of a payload of the block is the blocks of its runs. -/
theorem stuffEncode_eq_codeBlocks {p : List Byte} (h : p.length ≤ 64) :
    stuffEncode p = (codeBlocks (p.splitOn 0xAA#8), (p.splitOn 0xAA#8).length - 1) := by
  have hruns := stuffEncode_intercalate (List.splitOn_ne_nil 0xAA#8 p) fun r hr =>
    (mem_splitOn_startByte p hr).imp_right fun hlen => by omega
  rwa [List.intercalate_splitOn] at hruns

theorem stuffStep_idx (t : Stuffer) (b : Byte) : (stuffStep t b).idx = t.idx + [b].count 0xAA#8 := by
  by_cases hb : b = Config.startByte
  · subst hb
    rw [stuffStep_startByte]
    rfl
  · have hcount : [b].count 0xAA#8 = 0 := List.count_eq_zero.2 fun h => hb (List.mem_singleton.1 h).symm
    rw [hcount]
    by_cases hc : t.code + 1 = Config.flushCode
    · rw [stuffStep_flush hb hc]
      rfl
    · rw [stuffStep_data hb hc]
      rfl

theorem foldl_stuffStep_idx (p : List Byte) (t : Stuffer) : (p.foldl stuffStep t).idx = t.idx + p.count 0xAA#8 := by
  induction p generalizing t with
  | nil => rfl
  | cons b p ih =>
    rw [List.foldl_cons, ih, stuffStep_idx, Nat.add_assoc, ← List.count_append, List.singleton_append]

/-- Settles O18: each turn counts its byte. -/
theorem stuffIndexCountsStartBytes : Obligations.StuffIndexCountsStartBytes := fun p =>
  (foldl_stuffStep_idx p stufferInit).trans (Nat.zero_add _)

theorem startByte_not_mem_stuffEncode {p : List Byte} (h : p.length ≤ 64) : 0xAA#8 ∉ (stuffEncode p).1 := by
  rw [stuffEncode_eq_codeBlocks h]
  exact startByte_not_mem_codeBlocks fun r hr => (mem_splitOn_startByte p hr).imp_right fun hlen => by omega

/-- Settles O19: no run of the payload is long enough for a flush or for the code 0xAA. -/
theorem stuffedPayloadShape : Obligations.StuffedPayloadShape := fun _ hp =>
  ⟨stuffEncode_length (by omega), List.count_eq_zero.2 (startByte_not_mem_stuffEncode hp)⟩

/-! ### The decoder, block by block -/

/-- Whatever follows whole blocks is decoded after them, one turn for each. -/
theorem decodeBlocks_codeBlocks_append {runs : List (List Byte)} (h : ∀ r ∈ runs, r.length ≤ 254) (k : Nat)
    (tail p : List Byte) (n : Nat) :
    ∃ p' n', decodeBlocks (runs.length + k) (codeBlocks runs ++ tail) p n = decodeBlocks k tail p' n' := by
  induction runs generalizing p n with
  | nil => exact ⟨p, n, by simp⟩
  | cons r runs ih =>
    obtain ⟨hr, hruns⟩ := List.forall_mem_cons.1 h
    rw [List.length_cons, Nat.add_right_comm, codeBlocks_cons, List.append_assoc, codeBlock,
      decodeBlocks_block _ p n (code_toNat hr)]
    split_ifs
    · exact ih hruns _ _
    · exact ih hruns _ _

/-- Blocks with codes below 0xFF give their runs joined by start bytes (R155, R156). -/
theorem decodeBlocks_codeBlocks {runs : List (List Byte)} (hne : runs ≠ []) (h : ∀ r ∈ runs, r.length ≤ 253) {k : Nat}
    (hk : runs.length ≤ k) (p : List Byte) (n : Nat) :
    decodeBlocks k (codeBlocks runs) p n = .ok (p ++ [0xAA#8].intercalate runs, n + (runs.length - 1)) := by
  induction runs generalizing k p n with
  | nil => exact absurd rfl hne
  | cons r runs ih =>
    obtain ⟨hr, hruns⟩ := List.forall_mem_cons.1 h
    obtain ⟨k, rfl⟩ : ∃ m, k = m + 1 := ⟨k - 1, by simp only [List.length_cons] at hk; omega⟩
    have hcode := code_toNat (r := r) (by omega)
    rw [codeBlocks_cons, codeBlock, decodeBlocks_block k p n hcode, hcode]
    cases runs with
    | nil => simp
    | cons r' runs =>
      have hcount : n + 1 + ((r' :: runs).length - 1) = n + ((r :: r' :: runs).length - 1) := by
        simp only [List.length_cons]
        omega
      rw [if_pos ⟨by omega, by simp [codeBlock]⟩, ih (List.cons_ne_nil r' runs) hruns (Nat.le_of_succ_le_succ hk),
        hcount, List.intercalate_cons_cons]
      simp only [List.append_assoc]

/-! ### The order of the decoder's errors -/

theorem stuffDecode_startByte {q : List Byte} (idx : Nat) (h : 0xAA#8 ∈ q) :
    stuffDecode q idx = .error .startByteInInput := if_pos (List.count_pos_iff.2 h)

theorem stuffDecode_nil (idx : Nat) : stuffDecode [] idx = .error .truncated := rfl

/-- Past the two checks of the whole input, `stuffDecode` is the loop and the check of the index (R157). -/
theorem stuffDecode_eq_decodeBlocks {q : List Byte} (idx : Nat) (h : 0xAA#8 ∉ q) (hne : q ≠ []) :
    stuffDecode q idx = (decodeBlocks q.length q [] 0).bind fun r =>
      if r.2 = idx then .ok r.1 else .error .indexMismatch := by
  have hcount : ¬ 0 < q.count Config.startByte := fun hc => h (List.count_pos_iff.1 hc)
  unfold stuffDecode
  rw [if_neg hcount, if_neg hne]
  cases decodeBlocks q.length q [] 0 with
  | error e => rfl
  | ok r => exact ite_not _ _ _

/-- An error of the block that follows whole blocks is the answer, whatever the index is. -/
theorem stuffDecode_block_error {runs : List (List Byte)} {c : Byte} {tail : List Byte} {e : CmdError} (idx : Nat)
    (hruns : ∀ r ∈ runs, r.length ≤ 254) (hmem : 0xAA#8 ∉ codeBlocks runs ++ c :: tail)
    (herr : ∀ k p n, decodeBlocks (k + 1) (c :: tail) p n = .error e) :
    stuffDecode (codeBlocks runs ++ c :: tail) idx = .error e := by
  obtain ⟨k, hk⟩ : ∃ k, (codeBlocks runs ++ c :: tail).length = runs.length + (k + 1) := by
    have hle := length_le_codeBlocks_length runs
    refine ⟨(codeBlocks runs).length - runs.length + tail.length, ?_⟩
    rw [List.length_append, List.length_cons]
    omega
  obtain ⟨p, n, hblocks⟩ := decodeBlocks_codeBlocks_append hruns (k + 1) (c :: tail) [] 0
  rw [stuffDecode_eq_decodeBlocks idx hmem (by simp), hk, hblocks, herr]
  rfl

theorem stuffDecode_zeroCode {runs : List (List Byte)} (tail : List Byte) (idx : Nat)
    (hruns : ∀ r ∈ runs, r.length ≤ 254) (hmem : 0xAA#8 ∉ codeBlocks runs ++ 0x00#8 :: tail) :
    stuffDecode (codeBlocks runs ++ 0x00#8 :: tail) idx = .error .zeroCode :=
  stuffDecode_block_error idx hruns hmem fun k p n => decodeBlocks_zeroCode k tail p n

theorem stuffDecode_truncated {runs : List (List Byte)} {c : Byte} {tail : List Byte} (idx : Nat)
    (hruns : ∀ r ∈ runs, r.length ≤ 254) (hlong : tail.length + 1 < c.toNat)
    (hmem : 0xAA#8 ∉ codeBlocks runs ++ c :: tail) :
    stuffDecode (codeBlocks runs ++ c :: tail) idx = .error .truncated :=
  stuffDecode_block_error idx hruns hmem fun k p n => decodeBlocks_truncated k p n hlong

/-- Settles O23: the two checks of the whole input come first, then the first block at fault. -/
theorem decoderErrorOrder : Obligations.DecoderErrorOrder :=
  ⟨fun _ => stuffDecode_startByte, stuffDecode_nil, fun _ => stuffDecode_zeroCode, fun _ _ _ => stuffDecode_truncated⟩

/-! ### Decoding and encoding -/

theorem stuffDecode_codeBlocks {runs : List (List Byte)} (idx : Nat) (hne : runs ≠ [])
    (hlen : ∀ r ∈ runs, r.length ≤ 253) (hmem : 0xAA#8 ∉ codeBlocks runs) :
    stuffDecode (codeBlocks runs) idx =
      if idx + 1 = runs.length then .ok ([0xAA#8].intercalate runs) else .error .indexMismatch := by
  have hpos := List.length_pos_iff.2 hne
  have hle := length_le_codeBlocks_length runs
  have hindex : 0 + (runs.length - 1) = idx ↔ idx + 1 = runs.length := by omega
  rw [stuffDecode_eq_decodeBlocks idx hmem (List.length_pos_iff.1 (by omega)), decodeBlocks_codeBlocks hne hlen hle]
  simp only [Except.bind, hindex, List.nil_append]

/-- Settles O22: the loop gives the joined runs and counts the joints. -/
theorem stuffDecodeByBlocks : Obligations.StuffDecodeByBlocks := fun _ idx hne hlen hcount =>
  stuffDecode_codeBlocks idx hne hlen (List.count_eq_zero.1 hcount)

/-- Settles O20: the payload is its runs joined, and its encoding is their blocks. -/
theorem stuffRoundTrip : Obligations.StuffRoundTrip := by
  intro p hp _
  have hne := List.splitOn_ne_nil 0xAA#8 p
  have hpos := List.length_pos_iff.2 hne
  have hmem := startByte_not_mem_stuffEncode hp
  rw [stuffEncode_eq_codeBlocks hp] at hmem ⊢
  have hlen : ∀ r ∈ p.splitOn 0xAA#8, r.length ≤ 253 := fun r hr => (mem_splitOn_startByte p hr).2.trans (by omega)
  rw [stuffDecode_codeBlocks _ hne hlen hmem, if_pos (by omega), List.intercalate_splitOn]

/-- What the decoder accepts is a row of blocks. -/
theorem exists_codeBlocks_of_stuffDecode_ok {q p : List Byte} {idx : Nat} (h : stuffDecode q idx = .ok p) :
    ∃ runs : List (List Byte), q = codeBlocks runs := by
  have hmem : 0xAA#8 ∉ q := List.count_eq_zero.1 (stuffDecode_ok h).1
  obtain ⟨runs, hruns, hq | ⟨c, tail, rfl, rfl | hlong⟩⟩ := exists_codeBlocks q
  · exact ⟨runs, hq⟩
  · cases (stuffDecode_zeroCode tail idx hruns hmem).symm.trans h
  · cases (stuffDecode_truncated idx hruns hlong hmem).symm.trans h

/-- What the decoder accepts in the block is the encoding of what it gives (R164). -/
theorem stuffEncode_of_stuffDecode_ok {q p : List Byte} {idx : Nat} (hq : q.length ≤ 64)
    (h : stuffDecode q idx = .ok p) : stuffEncode p = (q, idx) := by
  obtain ⟨hcount, hne, -⟩ := stuffDecode_ok h
  obtain ⟨runs, rfl⟩ := exists_codeBlocks_of_stuffDecode_ok h
  have hmem : 0xAA#8 ∉ codeBlocks runs := List.count_eq_zero.1 hcount
  have hruns : runs ≠ [] := fun e => hne (by rw [e, codeBlocks_nil])
  have hlen : ∀ r ∈ runs, r.length ≤ 253 := fun r hr => by
    have hblock := length_le_codeBlocks_length_of_mem hr
    omega
  rw [stuffDecode_codeBlocks idx hruns hlen hmem] at h
  split_ifs at h with hidx
  cases h
  rw [stuffEncode_intercalate hruns fun r hr => ⟨not_mem_of_not_mem_codeBlocks hmem hr, hlen r hr⟩, ← hidx,
    Nat.add_sub_cancel]

/-- Settles O21: an accepted input is the encoding of P, and an encoding is one byte longer. -/
theorem stuffCanonicalForm : Obligations.StuffCanonicalForm := by
  intro q p idx hq h
  have henc := stuffEncode_of_stuffDecode_ok hq h
  have hlen := stuffEncode_length (p := p) ((stuffDecode_length h).trans (by omega))
  rw [henc] at hlen
  exact ⟨henc, hlen.symm⟩

/-! ### The commands -/

theorem State.commitOk_committed (s : State) (w : Bool) (r : CmdOk) :
    (s.commitOk w r).Committed 0x00#8 r.result (BitVec.ofNat 8 r.bytes.length) r.chk := by
  simp [State.Committed]

theorem State.commitErr_committed (s : State) (w : Bool) (e : CmdError) :
    (s.commitErr w e).Committed e.code 0x00#8 0x00#8 false := by
  simp [State.Committed]

/-- The completion of a byte-output command that succeeds (spec/10_state.md R47). -/
theorem exec_byteOutput_ok {i : Instr} {s : State} {r : CmdOk} (hi : i.isCommand = true) (hout : i.byteOutput = true)
    (h : s.outcome i = .ok r) :
    ∃ t, exec i s = .next t ∧ t.Committed 0x00#8 r.result (BitVec.ofNat 8 r.bytes.length) r.chk ∧
      t.outBytes r.bytes.length = r.bytes := by
  have hlen := State.outcome_bytes_length h
  rw [exec_command s hi, hout, h]
  exact ⟨_, rfl, s.commitOk_committed true r, s.commitOk_outBytes r (by omega)⟩

/-- The completion of a command that fails (spec/60_exceptions.md R213). -/
theorem exec_command_error {i : Instr} {s : State} {e : CmdError} (hi : i.isCommand = true)
    (h : s.outcome i = .error e) : ∃ t, exec i s = .next t ∧ t.Committed e.code 0x00#8 0x00#8 false := by
  rw [exec_command s hi, h]
  exact ⟨_, rfl, s.commitErr_committed _ e⟩

theorem stuffEncOutcome_ok {p : List Byte} (h : p.count 0xAA#8 ≤ 63) :
    stuffEncOutcome p =
      .ok { result := BitVec.ofNat 8 (p.count 0xAA#8), bytes := (stuffEncode p).1, chk := false } := by
  rw [← stuffIndexCountsStartBytes p] at h ⊢
  exact if_neg (Nat.not_lt.2 h)

theorem stuffEncOutcome_overflow {p : List Byte} (h : 63 < p.count 0xAA#8) :
    stuffEncOutcome p = .error .stuffingOverflow := by
  rw [← stuffIndexCountsStartBytes p] at h
  exact if_pos h

/-- Settles O24: the outcome in each case, and its commit. -/
theorem stuffEncCompletes : Obligations.StuffEncCompletes := by
  refine fun s => ⟨fun hlen hcount => ?_, fun hlen hcount => ?_, fun hlen => ?_⟩
  · obtain ⟨t, hexec, hcommit, hout⟩ := exec_byteOutput_ok (i := .stuffEnc) rfl rfl
      ((State.overSpan_ok _ hlen).trans (stuffEncOutcome_ok hcount))
    have hbytes : (stuffEncode (s.inBytes s.len.toNat)).1.length = s.len.toNat + 1 := by
      rw [stuffEncode_length (by rw [s.inBytes_length]; omega), s.inBytes_length]
    simp only [hbytes, BitVec.ofNat_add, BitVec.ofNat_toNat, BitVec.setWidth_eq] at hcommit hout
    exact ⟨t, hexec, hcommit, hout⟩
  · exact exec_command_error (i := .stuffEnc) rfl ((State.overSpan_ok _ hlen).trans (stuffEncOutcome_overflow hcount))
  · exact exec_command_error (i := .stuffEnc) rfl (State.overSpan_badLength _ hlen)

theorem stuffDecOutcome_ok {q p : List Byte} {idx : Nat} (arg0 : Byte) (h : stuffDecode q idx = .ok p) :
    stuffDecOutcome idx arg0 q = .ok { result := arg0, bytes := p, chk := false } := by
  rw [stuffDecOutcome, h]

theorem stuffDecOutcome_error {q : List Byte} {idx : Nat} {e : CmdError} (arg0 : Byte)
    (h : stuffDecode q idx = .error e) : stuffDecOutcome idx arg0 q = .error e := by
  rw [stuffDecOutcome, h]

/-- Settles O25: the outcome in each case, and its commit; the length is O21's. -/
theorem stuffDecCompletes : Obligations.StuffDecCompletes := by
  refine fun s => ⟨fun p hlen hp => ?_, fun e hlen he => ?_, fun hlen => ?_⟩
  · obtain ⟨t, hexec, hcommit, hout⟩ := exec_byteOutput_ok (i := .stuffDec) rfl rfl
      ((State.overSpan_ok _ hlen).trans (stuffDecOutcome_ok s.arg0 hp))
    have hplen : p.length + 1 = s.len.toNat := by
      rw [(stuffCanonicalForm _ p _ (by rwa [s.inBytes_length]) hp).2, s.inBytes_length]
    have houtLen : BitVec.ofNat 8 p.length = s.len - 1#8 := by
      apply BitVec.eq_of_toNat_eq
      have hlt := s.len.isLt
      rw [BitVec.toNat_ofNat, BitVec.toNat_sub, BitVec.toNat_ofNat]
      omega
    exact ⟨t, hexec, houtLen ▸ hcommit, hplen, hout⟩
  · exact exec_command_error (i := .stuffDec) rfl ((State.overSpan_ok _ hlen).trans (stuffDecOutcome_error s.arg0 he))
  · exact exec_command_error (i := .stuffDec) rfl (State.overSpan_badLength _ hlen)

theorem State.outBytes_eq_inBytes_iff (s t : State) (n : Nat) :
    s.outBytes n = t.inBytes n ↔ ∀ k, k < n → s.outByte k = t.inByte k := by
  simp [State.outBytes, State.inBytes]

/-- Settles O26: STUFF_ENC leaves the encoding in OUT and RESULT, and STUFF_DEC decodes it by O20. -/
theorem stuffCommandsRoundTrip : Obligations.StuffCommandsRoundTrip := by
  intro s t u hlen hexec hulen huarg0 huin
  have hplen : (s.inBytes s.len.toNat).length = s.len.toNat := s.inBytes_length _
  have hcount : (s.inBytes s.len.toNat).count 0xAA#8 ≤ 63 := List.count_le_length.trans (hplen.trans_le hlen)
  obtain ⟨t', hexec', ⟨-, hresult, houtLen, -⟩, hout⟩ := (stuffEncCompletes s).1 (by omega) hcount
  cases hexec'.symm.trans hexec
  have hulen' : u.len.toNat = s.len.toNat + 1 := by
    rw [hulen, houtLen, BitVec.toNat_add, BitVec.toNat_ofNat]
    omega
  have hspan : u.inBytes u.len.toNat = (stuffEncode (s.inBytes s.len.toNat)).1 := by
    rw [hulen', ← hout]
    exact ((State.outBytes_eq_inBytes_iff t u _).2 fun k hk => (huin k (by rwa [← hulen, hulen'])).symm).symm
  have hindex : u.arg0.toNat = (stuffEncode (s.inBytes s.len.toNat)).2 := by
    rw [huarg0, hresult, stuffIndexCountsStartBytes, BitVec.toNat_ofNat]
    omega
  have hdecode : stuffDecode (u.inBytes u.len.toNat) u.arg0.toNat = .ok (s.inBytes s.len.toNat) := by
    rw [hspan, hindex]
    exact stuffRoundTrip _ (by omega) hcount
  obtain ⟨v, hv, ⟨herr, -, hvlen, -⟩, -, hvout⟩ := (stuffDecCompletes u).1 _ (by omega) hdecode
  refine ⟨v, hv, herr, ?_, ?_⟩
  · rw [hvlen, hulen, houtLen, BitVec.add_sub_cancel]
  · rw [hplen] at hvout
    exact (State.outBytes_eq_inBytes_iff v s _).1 hvout

end Sys2Proof.Machine
end

section
/-! PROOFS of the statements about frames. A frame is laid out as two metadata bytes, a stuffed payload and a CRC byte
behind the start byte; the checks of `frameDisassemble` are said once of that layout, and every input that passes the
first two checks has it. The codec's own laws (R162, R164) do the rest. -/
namespace Sys2Proof.Machine

/-! ### The layout of a frame -/

/-- The fields of R100 in their order, behind the start byte. -/
def frameLayout (lenByte idxByte : Byte) (q : List Byte) (crc : Byte) : List Byte :=
  [0xAA#8, lenByte, idxByte] ++ q ++ [crc]

section Layout

variable (a b : Byte) (q : List Byte) (c : Byte)

@[simp] theorem frameLayout_length : (frameLayout a b q c).length = q.length + 4 := by simp [frameLayout]

@[simp] theorem byteOf_frameLayout_start : byteOf (frameLayout a b q c) 0 = 0xAA#8 := rfl

@[simp] theorem byteOf_frameLayout_len : byteOf (frameLayout a b q c) 1 = a := rfl

@[simp] theorem byteOf_frameLayout_idx : byteOf (frameLayout a b q c) 2 = b := rfl

theorem byteOf_frameLayout_stuffed {j : Nat} (hj : j < q.length) :
    byteOf (frameLayout a b q c) (j + 3) = q[j] := by
  have htail : byteOf (frameLayout a b q c) (j + 3) = (q ++ [c]).getD j 0x00#8 := rfl
  rw [htail, List.getD_append _ _ _ _ hj, List.getD_eq_getElem _ _ hj]

@[simp] theorem byteOf_frameLayout_crc : byteOf (frameLayout a b q c) (q.length + 3) = c := by
  simp [byteOf, frameLayout]

@[simp] theorem stuffedPart_frameLayout : stuffedPart (frameLayout a b q c) = q := by
  simp [stuffedPart, frameLayout]

theorem frameLayout_set_stuffed {j : Nat} (hj : j < q.length) (x : Byte) :
    (frameLayout a b q c).set (j + 3) x = frameLayout a b (q.set j x) c := by
  simp [frameLayout, List.set_append_left _ _ hj]

theorem frameLayout_set_crc (x : Byte) : (frameLayout a b q c).set (q.length + 3) x = frameLayout a b q x := by
  simp [frameLayout, List.set_append_right]

end Layout

/-- An input that passes the first two checks of R181 has the layout of a frame. -/
theorem eq_frameLayout {f : List Byte} (hlen : 4 ≤ f.length) (hstart : byteOf f 0 = 0xAA#8) :
    f = frameLayout (byteOf f 1) (byteOf f 2) (stuffedPart f) (byteOf f (f.length - 1)) := by
  match f with
  | s :: a :: b :: tail =>
    obtain rfl : s = 0xAA#8 := hstart
    cases tail using List.reverseRecOn with
    | nil => simp at hlen
    | append_singleton q c =>
      have hlayout : 0xAA#8 :: a :: b :: (q ++ [c]) = frameLayout a b q c := rfl
      simp [hlayout]

/-! ### Metadata bytes -/

/-- Byte 1 of the frame of a payload of `n` bytes (R101). -/
def lengthByte (n : Nat) : Byte := metaByte n (pop4Len n)

theorem metaByte_le {n : Nat} (c : BitVec 2) (h : n ≤ 28) : (metaByte n c).toNat ≤ 0x73 := by
  rw [metaByte_toNat c (by omega)]
  omega

theorem ne_startByte_of_le {b : Byte} (h : b.toNat ≤ 0x73) : b ≠ 0xAA#8 := by
  rintro rfl
  exact absurd h (by decide)

theorem metaByte_of_byte (b : Byte) (c : BitVec 2) : metaByte b.toNat c = (b <<< 2) ||| c.setWidth 8 := by
  rw [metaByte, BitVec.ofNat_toNat, BitVec.setWidth_eq]

theorem pop4Len_of_byte (b : Byte) : pop4Len b.toNat = pop4 b := by
  rw [pop4Len, BitVec.ofNat_toNat, BitVec.setWidth_eq]

/-! ### Assembly -/

theorem stuffEncode_idx_le_length (p : List Byte) : (stuffEncode p).2 ≤ p.length :=
  (stuffIndexCountsStartBytes p).trans_le List.count_le_length

/-- Byte 2 of a payload's frame (R102). -/
def indexByte (p : List Byte) : Byte := metaByte (stuffEncode p).2 (pop4s (stuffEncode p).1)

/-- The frame of a payload (R180). -/
def assembledFrame (p : List Byte) : List Byte :=
  frameLayout (lengthByte p.length) (indexByte p) (stuffEncode p).1 (crc8 p)

/-- After the length check `frameAssemble` succeeds: there are no more start bytes than bytes (R180). -/
theorem frameAssemble_eq {p : List Byte} (h : p.length ≤ 28) : frameAssemble p = .ok (assembledFrame p) := by
  have hidx := stuffEncode_idx_le_length p
  have hlen : ¬ Config.maxPayload < p.length := Nat.not_lt.2 h
  have hoverflow : ¬ Config.maxStuffIndex < (stuffEncode p).2 := by
    simp only [Config.maxStuffIndex]
    omega
  rw [frameAssemble, if_neg hlen]
  exact if_neg hoverflow

theorem frameAssemble_eq_ok_iff {p f : List Byte} : frameAssemble p = .ok f ↔ p.length ≤ 28 ∧ f = assembledFrame p :=
  ⟨fun h => ⟨(frameAssemble_ok h).1, (frameAssemble_ok h).2.2⟩, fun ⟨hp, hf⟩ => hf ▸ frameAssemble_eq hp⟩

theorem frameAssemble_tooLong {p : List Byte} (h : 28 < p.length) : frameAssemble p = .error .payloadTooLong := if_pos h

theorem assembledFrame_length {p : List Byte} (h : p.length ≤ 28) : (assembledFrame p).length = p.length + 5 :=
  frameAssemble_length (frameAssemble_eq h)

theorem stuffedPart_assembledFrame (p : List Byte) : stuffedPart (assembledFrame p) = (stuffEncode p).1 :=
  stuffedPart_frameLayout _ _ _ _

/-- No field but the CRC can hold a start byte (R182). -/
theorem assembledFrame_ne_startByte {p : List Byte} (h : p.length ≤ 28) {k : Nat} (hk : 1 ≤ k)
    (hk' : k ≤ p.length + 3) : byteOf (assembledFrame p) k ≠ 0xAA#8 := by
  have hidx := (stuffEncode_idx_le_length p).trans h
  match k with
  | 1 => exact ne_startByte_of_le (metaByte_le _ h)
  | 2 => exact ne_startByte_of_le (metaByte_le _ hidx)
  | j + 3 =>
    have hj : j < (stuffEncode p).1.length := by rw [stuffEncode_length (by omega)]; omega
    rw [assembledFrame, byteOf_frameLayout_stuffed _ _ _ _ hj]
    intro hbyte
    exact startByte_not_mem_stuffEncode (p := p) (by omega) (hbyte ▸ List.getElem_mem hj)

/-- Settles O27: the fields of the layout, each below 0xAA where it is not the CRC. -/
theorem assembledFrameShape : Obligations.AssembledFrameShape := by
  refine ⟨fun p hp => ⟨assembledFrame p, frameAssemble_eq hp, assembledFrame_length hp, ?_, rfl, metaByte_le _ hp,
    metaByte_le _ ((stuffEncode_idx_le_length p).trans hp), fun k hk hk' => ?_⟩, by decide⟩
  · have hpart := stuffedPart_assembledFrame p
    rwa [stuffedPart, assembledFrame_length hp] at hpart
  · exact assembledFrame_ne_startByte hp hk (by rw [assembledFrame_length hp] at hk'; omega)

/-! ### Disassembly of a layout -/

/-- Settles O31: a metadata byte's fields are its quotient and remainder by 4, and two checksums of two bits are equal
as their numbers are. -/
theorem disassembleChecksInOrder : Obligations.DisassembleChecksInOrder := by
  intro f
  have hlchk : pop4Len (metaValue (byteOf f 1)) ≠ metaCheck (byteOf f 1) ↔
      popcount (BitVec.ofNat 8 ((f.getD 1 0#8).toNat / 4)) % 4 ≠ (f.getD 1 0#8).toNat % 4 := by
    rw [ne_eq, ← BitVec.toNat_inj, pop4Len, pop4_toNat, metaCheck_toNat, metaValue_toNat]
    rfl
  have hschk : pop4s (stuffedPart f) ≠ metaCheck (byteOf f 2) ↔
      (((f.drop 3).take (f.length - 4)).map popcount).sum % 4 ≠ (f.getD 2 0#8).toNat % 4 := by
    rw [ne_eq, ← BitVec.toNat_inj, pop4s_toNat, metaCheck_toNat]
    rfl
  unfold frameDisassemble
  simp only [hlchk, hschk]
  simp only [metaValue_toNat]
  rfl

theorem frameDisassemble_badLengthChecksum {a : Byte} (b : Byte) (q : List Byte) (c : Byte)
    (h : pop4Len (metaValue a) ≠ metaCheck a) :
    frameDisassemble (frameLayout a b q c) = .error .badLengthChecksum := by
  simp [frameDisassemble, h, Config.startByte]

/-- Behind a good length byte come the stuffing checksum, the decoder, the length and the CRC. -/
theorem frameDisassemble_lengthByte {n : Nat} (hn : n ≤ 28) (b : Byte) (q : List Byte) (c : Byte) :
    frameDisassemble (frameLayout (lengthByte n) b q c) =
      if pop4s q ≠ metaCheck b then .error .badStuffingChecksum
      else (stuffDecode q (metaValue b)).bind fun p =>
        if p.length ≠ n then .error .lengthMismatch else if crc8 p ≠ c then .error .badCrc else .ok p := by
  have hvalue : metaValue (lengthByte n) = n := metaValue_metaByte _ (by omega)
  have hcheck : metaCheck (lengthByte n) = pop4Len n := metaCheck_metaByte _ (by omega)
  have hshort : ¬ (frameLayout (lengthByte n) b q c).length < 4 := by simp
  have hcrc : byteOf (frameLayout (lengthByte n) b q c) ((frameLayout (lengthByte n) b q c).length - 1) = c := by simp
  have hlong : ¬ Config.maxPayload < n := Nat.not_lt.2 hn
  rw [frameDisassemble, if_neg hshort]
  simp only [byteOf_frameLayout_start, byteOf_frameLayout_len, byteOf_frameLayout_idx, stuffedPart_frameLayout,
    hcrc, hvalue, hcheck, Config.startByte, ne_eq, not_true_eq_false, if_false, if_neg hlong]
  cases stuffDecode q (metaValue b) <;> rfl

theorem frameDisassemble_badStuffingChecksum {n : Nat} {b : Byte} {q : List Byte} (c : Byte) (hn : n ≤ 28)
    (h : pop4s q ≠ metaCheck b) :
    frameDisassemble (frameLayout (lengthByte n) b q c) = .error .badStuffingChecksum := by
  rw [frameDisassemble_lengthByte hn, if_pos h]

theorem frameDisassemble_decodeError {n : Nat} {b : Byte} {q : List Byte} {e : CmdError} (c : Byte) (hn : n ≤ 28)
    (h : pop4s q = metaCheck b) (hdecode : stuffDecode q (metaValue b) = .error e) :
    frameDisassemble (frameLayout (lengthByte n) b q c) = .error e := by
  rw [frameDisassemble_lengthByte hn, if_neg (not_not.2 h), hdecode]
  rfl

/-- Where the decoder gives as many bytes as the length byte says, the CRC decides. -/
theorem frameDisassemble_decoded {p : List Byte} {b : Byte} {q : List Byte} (c : Byte) (hp : p.length ≤ 28)
    (h : pop4s q = metaCheck b) (hdecode : stuffDecode q (metaValue b) = .ok p) :
    frameDisassemble (frameLayout (lengthByte p.length) b q c) =
      if crc8 p ≠ c then .error .badCrc else .ok p := by
  rw [frameDisassemble_lengthByte hp, if_neg (not_not.2 h), hdecode]
  exact if_neg (not_not.2 rfl)

/-! ### Round trip and canonical form -/

theorem metaValue_indexByte {p : List Byte} (h : p.length ≤ 28) : metaValue (indexByte p) = (stuffEncode p).2 :=
  metaValue_metaByte _ (by have := stuffEncode_idx_le_length p; omega)

theorem metaCheck_indexByte {p : List Byte} (h : p.length ≤ 28) :
    metaCheck (indexByte p) = pop4s (stuffEncode p).1 :=
  metaCheck_metaByte _ (by have := stuffEncode_idx_le_length p; omega)

theorem stuffDecode_stuffEncode {p : List Byte} (h : p.length ≤ 28) :
    stuffDecode (stuffEncode p).1 (stuffEncode p).2 = .ok p :=
  stuffRoundTrip p (by omega) (List.count_le_length.trans (by omega))

/-- The frame of a payload with any byte in place of the CRC. -/
theorem frameDisassemble_assembled {p : List Byte} (c : Byte) (h : p.length ≤ 28) :
    frameDisassemble (frameLayout (lengthByte p.length) (indexByte p) (stuffEncode p).1 c) =
      if crc8 p ≠ c then .error .badCrc else .ok p :=
  frameDisassemble_decoded c h (metaCheck_indexByte h).symm (by rw [metaValue_indexByte h, stuffDecode_stuffEncode h])

theorem frameDisassemble_assembledFrame {p : List Byte} (h : p.length ≤ 28) :
    frameDisassemble (assembledFrame p) = .ok p :=
  (frameDisassemble_assembled (crc8 p) h).trans (if_neg (not_not.2 rfl))

/-- Settles O28: every check passes on the bytes that assembly computes, and the decoder inverts the encoder (R162). -/
theorem frameRoundTrip : Obligations.FrameRoundTrip := fun _ hp =>
  ⟨_, frameAssemble_eq hp, frameDisassemble_assembledFrame hp⟩

/-- What is accepted is the frame of what it gives: the checks fix the metadata bytes and the CRC, and Q is the
encoding of the payload (R164). -/
theorem eq_assembledFrame_of_frameDisassemble_ok {f p : List Byte} (hf : f.length ≤ 64)
    (h : frameDisassemble f = .ok p) : p.length ≤ 28 ∧ f = assembledFrame p := by
  obtain ⟨hlen, hstart, hlchk, hplen, hschk, hdecode, hp, hcrc⟩ := frameDisassemble_ok h
  have hq : (stuffedPart f).length ≤ 64 := by
    rw [stuffedPart, List.length_take]
    omega
  have henc := stuffEncode_of_stuffDecode_ok hq hdecode
  have hlenByte : lengthByte p.length = byteOf f 1 := by
    rw [lengthByte, hp, hlchk, metaByte_fields]
  have hidxByte : indexByte p = byteOf f 2 := by
    rw [indexByte, henc, hschk, metaByte_fields]
  refine ⟨hp ▸ hplen, ?_⟩
  rw [assembledFrame, hlenByte, hidxByte, henc, hcrc]
  exact eq_frameLayout hlen hstart

/-- Settles O30: what is accepted is a frame, and a frame is accepted. -/
theorem onlyCanonicalFramesAccepted : Obligations.OnlyCanonicalFramesAccepted := by
  refine fun f p hf => ⟨fun h => ?_, fun ⟨hasm, hp⟩ => ?_⟩
  · obtain ⟨hp, rfl⟩ := eq_assembledFrame_of_frameDisassemble_ok hf h
    exact ⟨frameAssemble_eq hp, hp⟩
  · rw [(frameAssemble_eq_ok_iff.1 hasm).2]
    exact frameDisassemble_assembledFrame hp

/-! ### Flipped bits -/

/-- A byte with bit `k` inverted. -/
def flipBit (b : Byte) (k : Nat) : Byte := b ^^^ BitVec.ofNat 8 (2 ^ k)

theorem getLsbD_flipBit (b : Byte) {k : Nat} (hk : k < 8) (j : Nat) :
    (flipBit b k).getLsbD j = (b.getLsbD j ^^ decide (k = j)) := by
  have hpow : BitVec.ofNat 8 (2 ^ k) = BitVec.twoPow 8 k := by
    apply BitVec.eq_of_toNat_eq
    rw [BitVec.toNat_ofNat, BitVec.toNat_twoPow]
  rw [flipBit, hpow, BitVec.getLsbD_xor, BitVec.getLsbD_twoPow]
  simp [hk]

/-- One bit more or one bit less is another number modulo 4. -/
theorem pop4_flipBit_ne (b : Byte) {k : Nat} (hk : k < 8) : pop4 (flipBit b k) ≠ pop4 b := by
  have hbit (x : Bool) : (x ^^ true).toNat = x.toNat + 1 ∨ (x ^^ true).toNat + 1 = x.toNat := by
    cases x <;> simp
  have hcount : popcount (flipBit b k) = popcount b + 1 ∨ popcount (flipBit b k) + 1 = popcount b := by
    have hflipped := hbit (b.getLsbD k)
    simp only [popcount, getLsbD_flipBit b hk]
    interval_cases k <;>
      · simp only [Nat.reduceEqDiff, decide_true, decide_false, Bool.xor_false] at hflipped ⊢
        omega
  intro h
  have hmod := congrArg BitVec.toNat h
  rw [pop4_toNat, pop4_toNat] at hmod
  omega

theorem flipBit_ne (b : Byte) {k : Nat} (hk : k < 8) : flipBit b k ≠ b :=
  fun h => pop4_flipBit_ne b hk (congrArg pop4 h)

/-- A flip in bits 1:0 of a metadata byte leaves its value. -/
theorem metaValue_flipBit_low (b : Byte) {k : Nat} (hk : k < 2) : metaValue (flipBit b k) = metaValue b := by
  have hshift : BitVec.ofNat 8 (2 ^ k) >>> 2 = 0#8 := by interval_cases k <;> rfl
  rw [metaValue, flipBit, BitVec.ushiftRight_xor_distrib, hshift, BitVec.xor_zero, metaValue]

/-- A flip in bits 7:2 of a metadata byte flips a bit of its value. -/
theorem ushiftRight_flipBit_high (b : Byte) {k : Nat} (hk : 2 ≤ k) (hk' : k < 8) :
    flipBit b k >>> 2 = flipBit (b >>> 2) (k - 2) := by
  have hshift : BitVec.ofNat 8 (2 ^ k) >>> 2 = BitVec.ofNat 8 (2 ^ (k - 2)) := by interval_cases k <;> rfl
  rw [flipBit, BitVec.ushiftRight_xor_distrib, hshift, flipBit]

/-- A flip in bits 7:2 of a metadata byte leaves its checksum. -/
theorem metaCheck_flipBit_high (b : Byte) {k : Nat} (hk : 2 ≤ k) (hk' : k < 8) :
    metaCheck (flipBit b k) = metaCheck b := by
  have hlow : (BitVec.ofNat 8 (2 ^ k)).extractLsb' 0 2 = 0#2 := by interval_cases k <;> rfl
  rw [metaCheck, flipBit, BitVec.extractLsb'_xor, hlow, BitVec.xor_zero, metaCheck]

theorem metaCheck_flipBit_low_ne (b : Byte) {k : Nat} (hk : k < 2) : metaCheck (flipBit b k) ≠ metaCheck b := by
  intro h
  have hbyte : flipBit b k = b := by
    rw [← metaByte_fields (flipBit b k), metaValue_flipBit_low b hk, h, metaByte_fields]
  exact flipBit_ne b (by omega) hbyte

theorem metaValue_flipBit_high_ne (b : Byte) {k : Nat} (hk : 2 ≤ k) (hk' : k < 8) :
    metaValue (flipBit b k) ≠ metaValue b := by
  intro h
  have hbyte : flipBit b k = b := by
    rw [← metaByte_fields (flipBit b k), metaCheck_flipBit_high b hk hk', h, metaByte_fields]
  exact flipBit_ne b hk' hbyte

theorem pop4Len_metaValue (b : Byte) : pop4Len (metaValue b) = pop4 (b >>> 2) := pop4Len_of_byte _

/-- A flip in byte 1 changes either PLEN's checksum or LCHK, and not both. -/
theorem lengthChecksum_flipBit {b : Byte} {k : Nat} (hk : k < 8) (h : pop4Len (metaValue b) = metaCheck b) :
    pop4Len (metaValue (flipBit b k)) ≠ metaCheck (flipBit b k) := by
  by_cases hlow : k < 2
  · rw [metaValue_flipBit_low b hlow, h]
    exact (metaCheck_flipBit_low_ne b hlow).symm
  · have hhigh : 2 ≤ k := Nat.not_lt.1 hlow
    rw [metaCheck_flipBit_high b hhigh hk, ← h, pop4Len_metaValue, pop4Len_metaValue,
      ushiftRight_flipBit_high b hhigh hk]
    exact pop4_flipBit_ne _ (by omega)

/-- A byte of another popcount changes the popcount of a sequence. -/
theorem pop4s_set_ne {q : List Byte} {j : Nat} (hj : j < q.length) {x : Byte} (hx : pop4 x ≠ pop4 q[j]) :
    pop4s (q.set j x) ≠ pop4s q := by
  have hsplit (y : Byte) : pop4s (q.take j ++ y :: q.drop (j + 1)) =
      pop4s (q.take j) + pop4s (q.drop (j + 1)) + pop4 y := by
    rw [List.append_cons, pop4s_append, pop4s_append, pop4s_singleton, add_right_comm]
  have hq := hsplit q[j]
  rw [List.getElem_cons_drop, List.take_append_drop] at hq
  rw [List.set_eq_take_append_cons_drop, if_pos hj, hsplit, hq]
  exact fun h => hx (add_left_cancel h)

/-- Another index than the one a sequence decodes with is a mismatch (R157). -/
theorem stuffDecode_indexMismatch {q p : List Byte} {idx idx' : Nat} (h : stuffDecode q idx = .ok p) (hne : idx' ≠ idx) :
    stuffDecode q idx' = .error .indexMismatch := by
  obtain ⟨hcount, hq, hblocks⟩ := stuffDecode_ok h
  rw [stuffDecode_eq_decodeBlocks idx' (List.count_eq_zero.1 hcount) hq, hblocks]
  exact if_neg hne.symm

section Flips

variable {p : List Byte} {k : Nat} (hp : p.length ≤ 28) (hk : k < 8)
include hp hk

theorem frameDisassemble_flip_lengthByte :
    frameDisassemble (frameLayout (flipBit (lengthByte p.length) k) (indexByte p) (stuffEncode p).1 (crc8 p)) =
      .error .badLengthChecksum := by
  refine frameDisassemble_badLengthChecksum _ _ _ (lengthChecksum_flipBit hk ?_)
  rw [lengthByte, metaValue_metaByte _ (by omega), metaCheck_metaByte _ (by omega)]

theorem frameDisassemble_flip_indexByte :
    frameDisassemble (frameLayout (lengthByte p.length) (flipBit (indexByte p) k) (stuffEncode p).1 (crc8 p)) =
      .error (if 2 ≤ k then .indexMismatch else .badStuffingChecksum) := by
  split_ifs with hhigh
  · refine frameDisassemble_decodeError _ hp ?_ (stuffDecode_indexMismatch (stuffDecode_stuffEncode hp) ?_)
    · rw [metaCheck_flipBit_high _ hhigh hk, metaCheck_indexByte hp]
    · rw [← metaValue_indexByte hp]
      exact metaValue_flipBit_high_ne _ hhigh hk
  · refine frameDisassemble_badStuffingChecksum _ hp ?_
    rw [← metaCheck_indexByte hp]
    exact (metaCheck_flipBit_low_ne _ (Nat.not_le.1 hhigh)).symm

theorem frameDisassemble_flip_stuffed {j : Nat} (hj : j < (stuffEncode p).1.length) :
    frameDisassemble (frameLayout (lengthByte p.length) (indexByte p)
      ((stuffEncode p).1.set j (flipBit (stuffEncode p).1[j] k)) (crc8 p)) = .error .badStuffingChecksum := by
  refine frameDisassemble_badStuffingChecksum _ hp ?_
  rw [metaCheck_indexByte hp]
  exact pop4s_set_ne hj (pop4_flipBit_ne _ hk)

theorem frameDisassemble_flip_crc :
    frameDisassemble (frameLayout (lengthByte p.length) (indexByte p) (stuffEncode p).1 (flipBit (crc8 p) k)) =
      .error .badCrc := by
  rw [frameDisassemble_assembled _ hp, if_pos (flipBit_ne _ hk).symm]

end Flips

/-- Settles O29: by the field that holds the flipped bit. -/
theorem singleBitFlipsAreCaught : Obligations.SingleBitFlipsAreCaught := by
  intro p f i k hp hf hi hlt hk
  obtain ⟨-, rfl⟩ := frameAssemble_eq_ok_iff.1 hf
  have hq : (stuffEncode p).1.length = p.length + 1 := stuffEncode_length (by omega)
  have hlast : (assembledFrame p).length - 1 = (stuffEncode p).1.length + 3 := by
    rw [assembledFrame_length hp, hq]
    omega
  rw [hlast]
  match i with
  | 1 => exact frameDisassemble_flip_lengthByte hp hk
  | 2 =>
    rw [if_neg (by decide), if_neg (by omega)]
    simp only [true_and]
    exact frameDisassemble_flip_indexByte hp hk
  | j + 3 =>
    have hflip : (assembledFrame p).getD (j + 3) 0#8 ^^^ BitVec.ofNat 8 (2 ^ k) =
      flipBit (byteOf (assembledFrame p) (j + 3)) k := rfl
    rw [if_neg (by omega), hflip, assembledFrame]
    by_cases hj : j < (stuffEncode p).1.length
    · rw [if_neg (by omega), if_neg (by omega), byteOf_frameLayout_stuffed _ _ _ _ hj,
        frameLayout_set_stuffed _ _ _ _ hj]
      exact frameDisassemble_flip_stuffed hp hk hj
    · obtain rfl : j = (stuffEncode p).1.length := by omega
      rw [if_pos rfl, byteOf_frameLayout_crc, frameLayout_set_crc]
      exact frameDisassemble_flip_crc hp hk

/-! ### The commands -/

theorem frameAsmOutcome_ok {p : List Byte} (h : p.length ≤ 28) :
    frameAsmOutcome p = .ok { result := crc8 p, bytes := assembledFrame p, chk := false } := by
  rw [frameAsmOutcome, frameAssemble_eq h]

theorem frameAsmOutcome_tooLong {p : List Byte} (h : 28 < p.length) :
    frameAsmOutcome p = .error .payloadTooLong := by
  rw [frameAsmOutcome, frameAssemble_tooLong h]

/-- FRAME_ASM on a payload that is not too long (R190). -/
theorem exec_frameAsm_ok {s : State} (h : s.len.toNat ≤ 28) :
    ∃ t, exec .frameAsm s = .next t ∧
      t.Committed 0x00#8 (crc8 (s.inBytes s.len.toNat)) (s.len + 5#8) false ∧
      t.outBytes (s.len.toNat + 5) = assembledFrame (s.inBytes s.len.toNat) := by
  have hp : (s.inBytes s.len.toNat).length ≤ 28 := by rwa [s.inBytes_length]
  obtain ⟨t, hexec, hcommit, hout⟩ := exec_byteOutput_ok (i := .frameAsm) rfl rfl
    ((State.overSpan_ok _ (by omega)).trans (frameAsmOutcome_ok hp))
  simp only [assembledFrame_length hp, s.inBytes_length, BitVec.ofNat_add, BitVec.ofNat_toNat,
    BitVec.setWidth_eq] at hcommit hout
  exact ⟨t, hexec, hcommit, hout⟩

/-- Settles O32: the outcome in each case, and its commit; the metadata bytes are R100's fields. -/
theorem frameAsmCompletes : Obligations.FrameAsmCompletes := by
  refine fun s => ⟨fun hlen => ?_, fun hlong hlen => ?_, fun hlen => ?_⟩
  · obtain ⟨t, hexec, hcommit, hout⟩ := exec_frameAsm_ok hlen
    refine ⟨t, hexec, hcommit, hout.trans ?_⟩
    rw [assembledFrame, s.inBytes_length, lengthByte, pop4Len_of_byte, metaByte_of_byte]
    rfl
  · exact exec_command_error (i := .frameAsm) rfl
      ((State.overSpan_ok _ hlen).trans (frameAsmOutcome_tooLong (by rwa [s.inBytes_length])))
  · exact exec_command_error (i := .frameAsm) rfl (State.overSpan_badLength _ hlen)

theorem frameDisOutcome_ok {f p : List Byte} (h : frameDisassemble f = .ok p) :
    frameDisOutcome f = .ok { result := crc8 p, bytes := p, chk := false } := by
  rw [frameDisOutcome, h]

theorem frameDisOutcome_error {f : List Byte} {e : CmdError} (h : frameDisassemble f = .error e) :
    frameDisOutcome f = .error e := by
  rw [frameDisOutcome, h]

theorem byteOf_inBytes (s : State) {n i : Nat} (h : i < n) : byteOf (s.inBytes n) i = s.inByte i := by
  simp [byteOf, State.inBytes, h]

/-- Settles O33: the outcome in each case, and its commit; the lengths are those of the frame of the payload (R185). -/
theorem frameDisCompletes : Obligations.FrameDisCompletes := by
  refine fun s => ⟨fun p hlen hp => ?_, fun e hlen he => ?_, fun hlen => ?_⟩
  · obtain ⟨t, hexec, hcommit, hout⟩ := exec_byteOutput_ok (i := .frameDis) rfl rfl
      ((State.overSpan_ok _ hlen).trans (frameDisOutcome_ok hp))
    obtain ⟨-, -, -, -, -, -, hplen, hcrc⟩ := frameDisassemble_ok hp
    obtain ⟨hmax, hframe⟩ := eq_assembledFrame_of_frameDisassemble_ok (by rwa [s.inBytes_length]) hp
    have htotal : s.len.toNat = p.length + 5 := by
      rw [← assembledFrame_length hmax, ← hframe, s.inBytes_length]
    have houtLen : BitVec.ofNat 8 p.length = s.len - 5#8 := by
      rw [eq_sub_iff_add_eq, ← BitVec.ofNat_add, ← htotal, BitVec.ofNat_toNat, BitVec.setWidth_eq]
    rw [s.inBytes_length, byteOf_inBytes s (by omega)] at hcrc
    rw [byteOf_inBytes s (by omega), metaValue_toNat] at hplen
    exact ⟨t, hexec, houtLen ▸ hcommit, hcrc, hplen, htotal.symm, hout⟩
  · exact exec_command_error (i := .frameDis) rfl ((State.overSpan_ok _ hlen).trans (frameDisOutcome_error he))
  · exact exec_command_error (i := .frameDis) rfl (State.overSpan_badLength _ hlen)

/-- Settles O34: FRAME_ASM leaves the frame in OUT, and FRAME_DIS disassembles it by O28. -/
theorem frameCommandsRoundTrip : Obligations.FrameCommandsRoundTrip := by
  intro s t u hlen hexec hulen huin
  have hplen : (s.inBytes s.len.toNat).length = s.len.toNat := s.inBytes_length _
  obtain ⟨t', hexec', ⟨-, hresult, houtLen, -⟩, hout⟩ := exec_frameAsm_ok hlen
  cases hexec'.symm.trans hexec
  have hulen' : u.len.toNat = s.len.toNat + 5 := by
    rw [hulen, houtLen, BitVec.toNat_add, BitVec.toNat_ofNat]
    omega
  have hspan : u.inBytes u.len.toNat = assembledFrame (s.inBytes s.len.toNat) := by
    rw [hulen', ← hout]
    exact ((State.outBytes_eq_inBytes_iff t u _).2 fun k hk => (huin k (by rwa [← hulen, hulen'])).symm).symm
  have hdis : frameDisassemble (u.inBytes u.len.toNat) = .ok (s.inBytes s.len.toNat) := by
    rw [hspan, frameDisassemble_assembledFrame (hplen.trans_le hlen)]
  obtain ⟨v, hv, ⟨herr, hvresult, hvlen, -⟩, -, -, -, hvout⟩ := (frameDisCompletes u).1 _ (by omega) hdis
  refine ⟨v, hv, herr, ?_, hvresult.trans hresult.symm, ?_⟩
  · rw [hvlen, hulen, houtLen, BitVec.add_sub_cancel]
  · rw [hplen] at hvout
    exact (State.outBytes_eq_inBytes_iff v s _).1 hvout

end Sys2Proof.Machine
end

section
/-! PROOFS of the statements about exceptions: the values that ERRCODE holds, what an error outcome clears, which
commands set CHK_OK, and when irq rises and falls. -/
namespace Sys2Proof.Machine

/-! ### ERRCODE -/

/-- Settles O35: the table of R211 is the definition of `CmdError.code`. -/
theorem errorCodesAsTabulated : Obligations.ErrorCodesAsTabulated :=
  ⟨rfl, rfl, rfl, rfl, rfl, rfl, rfl, rfl, rfl, rfl, rfl, rfl, rfl, rfl⟩

theorem CmdError.code_mem_errcodes (e : CmdError) : e.code ∈ errcodes := by cases e <;> decide

/-- A completion writes 0x00 or the code of an error kind (R47, R213). -/
theorem State.finish_errcodeListed (s : State) (w : Bool) (o : CmdOutcome) : (s.finish w o).errcodeListed := by
  unfold State.errcodeListed
  cases o with
  | ok r =>
    rw [State.finish_ok, State.commitOk_errcode]
    decide
  | error e =>
    rw [State.finish_error, State.commitErr_errcode]
    exact e.code_mem_errcodes

@[simp] theorem State.hostRead_errcode (s : State) (a : Byte) : (s.hostRead a).errcode = s.errcode := by
  obtain ⟨b, e⟩ | ⟨-, b, e⟩ := s.hostRead_cases a <;> simp [e]

@[simp] theorem State.hostWrite_errcode (s : State) (a v : Byte) : (s.hostWrite a v).errcode = s.errcode := by
  cases hb : s.busy with
  | true =>
    rw [State.hostWrite_busy a v hb]
    obtain e | e | e | e := s.writeBusy_cases v (locOf a) hb <;> simp [e]
  | false =>
    rw [State.hostWrite_idle a v hb]
    exact (s.writeIdle_outputRegisters v (locOf a)).1

theorem Took.errcodeListed {s t : State} {e : Event} (h : Took s e t) (hs : s.errcodeListed) : t.errcodeListed := by
  cases h with
  | idle => exact hs
  | command i => exact s.finish_errcodeListed _ _
  | illegal => exact s.finish_errcodeListed false (.error .illegalCommand)
  | read a => simpa [State.errcodeListed] using hs
  | write a v => simpa [State.errcodeListed] using hs
  | reset => simp [State.errcodeListed, State.reset, errcodes]

/-- Settles O57: only a completion and a reset write ERRCODE, and each writes a value of the table. -/
theorem errcodeStaysListed : Obligations.ErrcodeStaysListed :=
  fun _ _ hs hstep => (step_took hstep).errcodeListed hs

/-! ### CHK_OK -/

theorem checksumOk_chk {result : Byte} {chk : Bool} {r : CmdOk} (h : checksumOk result chk = .ok r) :
    r.chk = chk := by
  cases h; rfl

theorem stuffEncOutcome_chk {p : List Byte} {r : CmdOk} (h : stuffEncOutcome p = .ok r) : r.chk = false := by
  by_cases hcount : p.count 0xAA#8 ≤ 63
  · cases (stuffEncOutcome_ok hcount).symm.trans h
    rfl
  · cases (stuffEncOutcome_overflow (Nat.not_le.1 hcount)).symm.trans h

theorem stuffDecOutcome_chk {idx : Nat} {arg0 : Byte} {q : List Byte} {r : CmdOk}
    (h : stuffDecOutcome idx arg0 q = .ok r) : r.chk = false := by
  have hr := Except.ok.inj (h.symm.trans (stuffDecOutcome_ok arg0 (stuffDecOutcome_bytes h)))
  exact congrArg CmdOk.chk hr

theorem frameAsmOutcome_chk {p : List Byte} {r : CmdOk} (h : frameAsmOutcome p = .ok r) : r.chk = false := by
  have hlen : p.length ≤ 28 := (frameAssemble_ok (frameAsmOutcome_bytes h)).1
  cases (frameAsmOutcome_ok hlen).symm.trans h
  rfl

theorem frameDisOutcome_chk {f : List Byte} {r : CmdOk} (h : frameDisOutcome f = .ok r) : r.chk = false := by
  have hr := Except.ok.inj (h.symm.trans (frameDisOutcome_ok (frameDisOutcome_bytes h)))
  exact congrArg CmdOk.chk hr

/-- R26: a command that is no validate command gives CHK_OK = 0. -/
theorem State.outcome_chk {s : State} {i : Instr} {r : CmdOk} (h : s.outcome i = .ok r) (hi : i.validates = false) :
    r.chk = false := by
  cases i with
  | crc8Chk | pop4Chk | pop4bChk => cases hi
  | crc8 | pop4 => exact checksumOk_chk (State.overSpan_eq_ok h).2
  | pop4b | crcData _ => exact checksumOk_chk h
  | stuffEnc => exact stuffEncOutcome_chk (State.overSpan_eq_ok h).2
  | stuffDec => exact stuffDecOutcome_chk (State.overSpan_eq_ok h).2
  | frameAsm => exact frameAsmOutcome_chk (State.overSpan_eq_ok h).2
  | frameDis => exact frameDisOutcome_chk (State.overSpan_eq_ok h).2

/-- Settles O37: a success leaves ERRCODE 0 and the outcome's check, an error clears the results. -/
theorem errorOutcomesClearResults : Obligations.ErrorOutcomesClearResults := by
  intro i s t hi h
  cases (exec_command s hi).symm.trans h
  refine ⟨s.finish_busy _ _, s.finish_done _ _, ?_⟩
  cases ho : s.outcome i with
  | ok r =>
    have hval : r.chk = true → i.validates = true := by
      contrapose
      simpa using State.outcome_chk ho
    simpa [State.finish_ok] using hval
  | error e => simp [State.finish_error]

/-! ### irq -/

theorem State.finish_irq (s : State) (w : Bool) (o : CmdOutcome) : (s.finish w o).irq = s.ie := by
  simp [State.irq]

@[simp] theorem State.hostRead_ie (s : State) (a : Byte) : (s.hostRead a).ie = s.ie := by
  obtain ⟨b, e⟩ | ⟨-, b, e⟩ := s.hostRead_cases a <;> simp [e]

theorem State.hostRead_irq (s : State) (a : Byte) : (s.hostRead a).irq = s.irq := by
  simp only [State.irq, State.hostRead_done, State.hostRead_ie]

/-- What a write leaves in DONE: an issue and W1C clear it (R25, R43). -/
theorem State.hostWrite_done (s : State) (a v : Byte) :
    (s.hostWrite a v).done =
      if a = 0x00#8 then s.done && s.busy else if a = 0x01#8 then s.done && !v.getLsbD 1 else s.done := by
  simp only [← locOf_eq_cmd, ← locOf_eq_status]
  cases hb : s.busy with
  | true =>
    rw [State.hostWrite_busy a v hb]
    cases locOf a <;> simp [State.writeBusy]
  | false =>
    rw [State.hostWrite_idle a v hb]
    cases locOf a <;> simp [State.writeIdle]

/-- What a write leaves in IE (R29). -/
theorem State.hostWrite_ie (s : State) (a v : Byte) :
    (s.hostWrite a v).ie = if a = 0x02#8 then v.getLsbD 0 else s.ie := by
  simp only [← locOf_eq_ctrl]
  cases hb : s.busy with
  | true =>
    rw [State.hostWrite_busy a v hb]
    cases locOf a <;> simp [State.writeBusy]
  | false =>
    rw [State.hostWrite_idle a v hb]
    cases locOf a <;> simp [State.writeIdle]

/-- A write never sets DONE. -/
theorem State.done_of_hostWrite_done {s : State} {a v : Byte} (h : (s.hostWrite a v).done = true) :
    s.done = true := by
  rw [State.hostWrite_done] at h
  split_ifs at h
  · exact (Bool.and_eq_true_iff.1 h).1
  · exact (Bool.and_eq_true_iff.1 h).1
  · exact h

theorem State.irq_iff (s : State) : s.irq = true ↔ s.done = true ∧ s.ie = true := Bool.and_eq_true_iff

/-- A write raises irq only by setting IE. -/
theorem State.hostWrite_irq_rises {s : State} {a v : Byte} (hs : s.irq = false) (h : (s.hostWrite a v).irq = true) :
    a = 0x02#8 ∧ v.getLsbD 0 = true := by
  obtain ⟨hdone, hie⟩ := (State.irq_iff _).1 h
  rw [State.hostWrite_ie] at hie
  split_ifs at hie with ha
  · exact ⟨ha, hie⟩
  · have hirq : s.irq = true := s.irq_iff.2 ⟨State.done_of_hostWrite_done hdone, hie⟩
    exact absurd hirq (by simp [hs])

theorem Took.irq_rises {s t : State} {e : Event} (h : Took s e t) (hs : s.irq = false) (ht : t.irq = true) :
    (s.busy = true ∧ e = .complete) ∨ ∃ v, e = .memWrite 0x02#8 1 v ∧ v.getLsbD 0 = true := by
  cases h with
  | idle => exact absurd ht (by simp [hs])
  | command i hb => exact .inl ⟨hb, rfl⟩
  | illegal hb => exact .inl ⟨hb, rfl⟩
  | read a => exact absurd ht (by simp [State.hostRead_irq, hs])
  | write a v =>
    obtain ⟨rfl, hv⟩ := State.hostWrite_irq_rises hs ht
    exact .inr ⟨v, rfl, hv⟩
  | reset => cases ht

/-- Settles O47: the completion sets DONE and keeps IE; each event that lowers irq by its equation; what raises it
by the cases of a step. -/
theorem irqIsALevel : Obligations.IrqIsALevel := by
  refine ⟨fun i s t hi h => ?completion, fun s t hstep =>
    ⟨fun v hb he => ?issue, fun v hv he => ?ack, fun v he => ?ctrl, fun he => ?reset, (step_took hstep).irq_rises⟩⟩
  case completion =>
    cases (exec_command s hi).symm.trans h
    exact s.finish_irq _ _
  case issue =>
    cases (step_memWrite he).symm.trans hstep
    simp [State.irq, State.hostWrite_done, hb]
  case ack =>
    cases (step_memWrite he).symm.trans hstep
    simp [State.irq, State.hostWrite_done, hv, -BitVec.getLsbD_eq_getElem]
  case ctrl =>
    cases (step_memWrite he).symm.trans hstep
    simp [State.irq, State.hostWrite_done, State.hostWrite_ie]
  case reset =>
    cases (step_reset he).symm.trans hstep
    rfl

end Sys2Proof.Machine
end

section
/-! PROOFS of the statements about reset and the draws: what a reset leaves in the registers and in the buffers,
what a commit leaves in OUT past its bytes, and that no draw is taken twice. -/
namespace Sys2Proof.Machine

/-! ### The registers after a reset -/

theorem step_reset_cons {s : State} {rest : List Event} (h : s.script = .reset :: rest) :
    step s = .next { s with script := rest }.resetStep := by
  rw [step_reset (State.nextEvent_cons h), State.taken_cons h]

theorem State.resetStep_statusByte (s : State) : s.resetStep.statusByte = State.reset.statusByte := rfl

theorem State.resetStep_ctrlByte (s : State) : s.resetStep.ctrlByte = State.reset.ctrlByte := rfl

/-- Settles O53: every register of the reset step is that of `State.reset`, where it is 0x00. -/
theorem resetClearsRegisters : Obligations.ResetClearsRegisters :=
  ⟨fun _ _ hs => ⟨_, step_reset_cons hs, rfl, State.resetStep_statusByte _, State.resetStep_ctrlByte _, rfl, rfl, rfl,
      rfl, rfl, rfl, rfl, rfl, rfl, rfl, rfl⟩,
    rfl, rfl, rfl, rfl, rfl, rfl, rfl, rfl, rfl, rfl, rfl⟩

/-! ### The buffers after a reset -/

/-- R241: a reset lists no byte, so each byte of IN and OUT is the draw given to it. -/
theorem State.resetStep_byteAt (s : State) (a : Nat) : s.resetStep.byteAt a = s.resetStep.freshAt a := rfl

theorem State.resetStep_inByte (s : State) {k : Nat} (hk : k < 64) :
    s.resetStep.inByte k = Config.draw (s.draws + k) := by
  have hin : inStart + k < outStart := by simp only [inStart, outStart]; omega
  rw [State.inByte, State.resetStep_byteAt, State.freshAt, if_pos hin, Nat.add_sub_cancel_left, State.resetStep_inBase]

theorem State.resetStep_outByte (s : State) (k : Nat) :
    s.resetStep.outByte k = Config.draw (s.draws + Config.inSize + k) := by
  have hout : ¬ outStart + k < outStart := by omega
  rw [State.outByte, State.resetStep_byteAt, State.freshAt, if_neg hout, Nat.add_sub_cancel_left,
    State.resetStep_outBase]

/-- Settles O54: IN gets the 64 draws that are next, and OUT the 128 after them. -/
theorem resetDrawsBuffers : Obligations.ResetDrawsBuffers :=
  fun _ _ hs => ⟨_, step_reset_cons hs, fun _ => State.resetStep_inByte _, fun k _ => State.resetStep_outByte _ k, rfl⟩

/-! ### OUT past the bytes of a commit -/

theorem Instr.isCommand_of_byteOutput {i : Instr} (h : i.byteOutput = true) : i.isCommand = true := by
  cases i with
  | crcData _ => cases h
  | _ => rfl

theorem State.fillOut_outByte_past (s : State) {bs : List Byte} {k : Nat} (h : bs.length ≤ k) :
    (s.fillOut bs).outByte k = Config.draw (s.draws + k) := by
  have hpast : (bs.take Config.outSize).length ≤ k := (List.length_take_le' _ _).trans h
  rw [s.fillOut_outByte, List.getElem?_eq_none hpast, Option.getD_none]

/-- R47, R213: OUT_LEN is the number of bytes committed, so OUT from OUT_LEN on is drawn. An outcome past 255
bytes would not fit OUT_LEN. -/
theorem State.finish_outByte_past (s : State) {o : CmdOutcome} {k : Nat}
    (hbytes : ∀ r, o = .ok r → r.bytes.length < 256) (hk : (s.finish true o).outLen.toNat ≤ k) :
    (s.finish true o).outByte k = Config.draw (s.draws + k) := by
  cases o with
  | ok r =>
    rw [State.finish_ok, State.commitOk_outLen, BitVec.toNat_ofNat, Nat.mod_eq_of_lt (hbytes r rfl)] at hk
    exact s.fillOut_outByte_past hk
  | error e => exact s.fillOut_outByte_past (Nat.zero_le k)

/-- Settles O38: the commit of a byte-output command gives OUT the 128 draws that are next. -/
theorem outPastOutLenIsDrawn : Obligations.OutPastOutLenIsDrawn := by
  intro i s t k hout h hk hlt
  cases (exec_command s (Instr.isCommand_of_byteOutput hout)).symm.trans h
  rw [hout] at hk ⊢
  have hbytes (r : CmdOk) (ho : s.outcome i = .ok r) : r.bytes.length < 256 :=
    (State.outcome_bytes_length ho).trans_lt (by decide)
  exact ⟨s.finish_outByte_past hbytes hk, (Nat.add_lt_add_left hlt s.draws).trans_eq (s.finish_draws true _).symm⟩

/-! ### The count of draws -/

/-- A write takes no draw and gives no buffer new ones (R67, R68). -/
theorem State.hostWrite_draws (s : State) (a v : Byte) :
    (s.hostWrite a v).inBase = s.inBase ∧ (s.hostWrite a v).outBase = s.outBase ∧
      (s.hostWrite a v).draws = s.draws := by
  cases hb : s.busy with
  | true =>
    rw [State.hostWrite_busy a v hb]
    obtain e | e | e | e := s.writeBusy_cases v (locOf a) hb <;> simp [e]
  | false =>
    rw [State.hostWrite_idle a v hb]
    cases locOf a <;> simp [State.writeIdle]

/-- A read leaves the buffers their draws, and takes at most one (R48). -/
theorem State.hostRead_draws (s : State) (a : Byte) :
    (s.hostRead a).inBase = s.inBase ∧ (s.hostRead a).outBase = s.outBase ∧ s.draws ≤ (s.hostRead a).draws := by
  obtain ⟨b, e⟩ | ⟨-, b, e⟩ := s.hostRead_cases a <;> simp [e]

/-- The draws that a step can give to the buffers: none, OUT the ones that are next, or both the ones that are next. -/
theorem Took.draws_cases {s t : State} {e : Event} (h : Took s e t) :
    (t.inBase = s.inBase ∧ t.outBase = s.outBase ∧ s.draws ≤ t.draws) ∨
      (t.inBase = s.inBase ∧ t.outBase = s.draws ∧ t.draws = s.draws + Config.outSize) ∨
      (t.inBase = s.draws ∧ t.outBase = s.draws + Config.inSize ∧
        t.draws = s.draws + (Config.inSize + Config.outSize)) := by
  cases h with
  | idle => exact .inl ⟨rfl, rfl, Nat.le_refl _⟩
  | command i => cases i.byteOutput <;> simp
  | illegal => simp
  | read a => exact .inl (s.hostRead_draws a)
  | write a v =>
    obtain ⟨hin, hout, hdraws⟩ := s.hostWrite_draws a v
    exact .inl ⟨hin, hout, hdraws.ge⟩
  | reset => exact .inr (.inr ⟨rfl, rfl, rfl⟩)

theorem Took.drawsTaken {s t : State} {e : Event} (h : Took s e t) (hs : s.drawsTaken) :
    t.drawsTaken ∧ s.draws ≤ t.draws := by
  unfold State.drawsTaken at hs ⊢
  obtain ⟨hin, hout, hdraws⟩ | ⟨hin, hout, hdraws⟩ | ⟨hin, hout, hdraws⟩ := h.draws_cases <;> omega

/-- Settles O59: whatever draws a step gives to a buffer are counted from the draws taken before it. -/
theorem drawsStayTaken : Obligations.DrawsStayTaken :=
  fun _ _ hs hstep => (step_took hstep).drawsTaken hs

/-! ### The state after power-on -/

theorem State.reset_drawsTaken : State.reset.drawsTaken := by
  unfold State.drawsTaken
  decide

/-- Settles O60: power-on has BUSY = 0, nothing listed, ERRCODE and OUT_LEN 0x00, and the first 192 draws. -/
theorem resetMeetsInvariants : Obligations.ResetMeetsInvariants :=
  ⟨fun h => Bool.false_ne_true h.1, Memory.wf_nil, List.mem_cons_self, Nat.zero_le 65, State.reset_drawsTaken⟩

end Sys2Proof.Machine
end
